-- ==== Sys2Proof/Word.lean ====
section
/-! DEFINITION. The machine's plain word types (00_scope.md R8, R9, R10). -/

namespace Sys2Proof

/-- A host-visible register, a host offset or a CMD word: 32 bits (R9, R80). -/
abbrev Word := BitVec 32

/-- One DMEM location (R60). -/
abbrev Byte := BitVec 8

/-- One symbol of the alphabet, 0 to 255 (R8). -/
abbrev Symbol := BitVec 8

/-- A bit string, first bit first; `true` is the bit 1 (R10). -/
abbrev Bits := List Bool

end Sys2Proof
end

