-- ==== Sys2Proof/Syntax.lean ====
section
/-! DEFINITION. The commands (opcode_table.json, R82), the command errors (R84) and the host transactions that are
CORE's program (R22, R63). -/

namespace Sys2Proof

/-- The seven commands of HCC-CMD v1 (R82). No command has an operand field: operands are registers (R81). -/
inductive Instr where
  /-- GENERATE, 0x01 (R110) -/
  | generate
  /-- SET, 0x02 (R120) -/
  | set
  /-- GET, 0x03 (R125) -/
  | get
  /-- MATCH, 0x04 (R130) -/
  | matchPrefix
  /-- ENCODE, 0x05 (R170) -/
  | encode
  /-- DECODE, 0x06 (R175) -/
  | decode
  /-- CLEAR, 0x07 (R140) -/
  | clear
  deriving DecidableEq, Repr

/-- The errors a command can end with (R84). They are results recorded in ERR_CODE, never a stop of the machine. -/
inductive CmdError where
  | invalidEntry
  | duplicateEntry
  | malformedCode
  | unknownSymbol
  | corruptStream
  | badCommand
  | rangeError
  | overlap
  | capacityExceeded
  deriving DecidableEq, Repr

/-- The size of a host transaction, in bytes 1, 2 or 4 (R63). -/
inductive Size where
  | b1 | b2 | b4
  deriving DecidableEq, Repr

/-- Transaction data of `8 * size` bits (R63). -/
inductive Datum where
  | w8  (v : BitVec 8)
  | w16 (v : BitVec 16)
  | w32 (v : BitVec 32)
  deriving DecidableEq, Repr

/-- A host transaction `(kind, offset, size, wdata)` (R63); a write's size is its datum's. -/
inductive Txn where
  | read  (offset : Word) (size : Size)
  | write (offset : Word) (wdata : Datum)
  deriving DecidableEq, Repr

/-- The response of a transaction: `(ok, rdata)` of a read, `ok` of a write, or `(error)` (R63). -/
inductive Response where
  | data (rdata : Datum)
  | done
  | error
  deriving DecidableEq, Repr

/-- One event of CORE's outside world, in the order in which they happen: a host transaction (R64), a turn of the
engine (R191), and the two edges of the reset input (R220). -/
inductive Input where
  | host (t : Txn)
  | engine
  | rstAssert
  | rstRelease
  deriving DecidableEq, Repr

end Sys2Proof
end

