-- ==== Sys2Proof/Decode.lean ====
section
/-! DEFINITION. The command decoder, total on every 32-bit word and rejecting by name, and the encoder (R80 to R83).
A command is the value of one 32-bit CMD write: nothing is fetched from memory (R73). -/

namespace Sys2Proof

/-- Why a CMD word is illegal (R83). -/
inductive DecodeError where
  /-- bits [31:8] are not zero -/
  | reservedBits
  /-- OPCODE is 0x00 or in 0x08 to 0xFF -/
  | badOpcode
  deriving DecidableEq, Repr

/-- CMD bits [7:0] (R80). -/
def opcodeField (w : Word) : BitVec 8 := w.extractLsb' 0 8

/-- CMD bits [31:8] (R80). -/
def reservedField (w : Word) : BitVec 24 := w.extractLsb' 8 24

/-- The opcode map (R82), every other word rejected (R83). -/
def decode (w : Word) : Except DecodeError Instr :=
  if reservedField w ≠ 0 then .error .reservedBits
  else
    match (opcodeField w).toNat with
    | 0x01 => .ok .generate
    | 0x02 => .ok .set
    | 0x03 => .ok .get
    | 0x04 => .ok .matchPrefix
    | 0x05 => .ok .encode
    | 0x06 => .ok .decode
    | 0x07 => .ok .clear
    | _ => .error .badOpcode

/-- The OPCODE of a command (R82). -/
def opcodeOf : Instr → BitVec 8
  | .generate => 0x01
  | .set => 0x02
  | .get => 0x03
  | .matchPrefix => 0x04
  | .encode => 0x05
  | .decode => 0x06
  | .clear => 0x07

/-- The CMD word of a command: its OPCODE under 24 zero bits (R80). -/
def encode (i : Instr) : Word := (0 : BitVec 24) ++ opcodeOf i

/-- The instruction of an opcode-table word of `nbits` bits, the bits above them zero. A command is one 32-bit word; a
number that does not fit one is no command. -/
def decodeTableWord (nbits w : Nat) : Option Instr :=
  let v := w % 2 ^ nbits
  if v < 2 ^ 32 then (decode (BitVec.ofNat 32 v)).toOption else none

end Sys2Proof
end

