-- ==== Sys2Proof/Machine/Bits.lean ====
section
/-! DEFINITION. Bit strings and bytes: the MSB-first correspondence (R11, R69), the first and last 1 (R13) and the code
characters (R86). -/

namespace Sys2Proof.Machine

/-- `bits8(b)`: the 8 bits of a byte, most-significant first (R11). -/
def bits8 (b : Byte) : Bits :=
  [b.getLsbD 7, b.getLsbD 6, b.getLsbD 5, b.getLsbD 4, b.getLsbD 3, b.getLsbD 2, b.getLsbD 1, b.getLsbD 0]

/-- The number a bit string denotes, first bit most significant; on 8 bits `sum of g[i] * 2^(7-i)` (R11). -/
def bitsToNat (g : Bits) : Nat :=
  g.foldl (fun acc b => 2 * acc + b.toNat) 0

/-- `byte(g)` of an 8-element bit string (R11). -/
def byteOf (g : Bits) : Byte := BitVec.ofNat 8 (bitsToNat g)

/-- `first1(s)`: the least index holding a 1 (R13). -/
def first1 (s : Bits) : Option Nat := s.findIdx? id

/-- `last1(s)`: the greatest index holding a 1 (R13). -/
def last1 (s : Bits) : Option Nat := (s.reverse.findIdx? id).map (fun i => s.length - 1 - i)

/-- The code character of a bit: 0x30 or 0x31 (R86). -/
def codeChar (b : Bool) : Byte := if b then 0x31 else 0x30

/-- `chars(c)` (R86). -/
def chars (c : Bits) : List Byte := c.map codeChar

/-- Is a byte a code character (R86)? -/
def isCodeChar (b : Byte) : Bool := b == 0x30 || b == 0x31

/-- The bits that a string of code characters stands for: `v[i] - 0x30` (R120). -/
def bitsOfChars (v : List Byte) : Bits := v.map (fun b => b == 0x31)

end Sys2Proof.Machine
end

