-- ==== Sys2Proof/Config.lean ====
section
/-! DEFINITION. What an implementation fixes (the two parameters) and the free values: values the spec leaves
open, constants without a body, so that nothing can be proved about which value they take. -/

namespace Sys2Proof

/-- The implementation parameters: `DMEM_SIZE = 2 ^ dmemLog2` (R6) and `CODE_LEN_MAX` (R7). Their legal ranges are
`Params.wf` in WellFormed.lean. -/
structure Params where
  dmemLog2   : Nat
  codeLenMax : Nat
  deriving DecidableEq, Repr

namespace Config

/-- The spec's reference parameters: `DMEM_SIZE = 2^16`, `CODE_LEN_MAX = 256` (R6, R7). -/
def reference : Params := { dmemLog2 := 16, codeLenMax := 256 }

/-- FREE VALUE (log entries 6, 7). The byte that draw `n` gives DMEM location `a`: what a location never written since
the last reset holds (R221), and what a destination byte holds after a failed ENCODE or DECODE (R197). -/
opaque freeByte : (n a : Nat) → Byte

/-- FREE VALUE (log entry 8). The value that a read made while BUSY = 1 returns as draw `n` (R227). -/
opaque freeWord : (n : Nat) → Word

/-- FREE VALUE (log entry 8). STATUS.TBL_PRESENT as a read made while BUSY = 1 returns it as draw `n` (R26, R227). -/
opaque freeBit : (n : Nat) → Bool

end Config
end Sys2Proof
end

