-- ==== Sys2Proof/Machine/State.lean ====
section
/-! DEFINITION. The state of CORE as plain data (R20), the reasons the model can stop, and the state after reset (R220). -/

namespace Sys2Proof.Machine

/-- Why the machine stops. Command errors are not faults: they complete the command (R191). -/
inductive Fault where
  /-- Raised by `Input.host` while `rst` is asserted: R223 gives such a transaction no step. Safe: the model stops where
  a device might go on; the host's duty not to do so is R223's (log entry 9). -/
  | hostDuringReset
  deriving DecidableEq, Repr

/-- Why an instruction has no meaning. -/
inductive Refusal where
  /-- Raised by an arm of `exec` whose instruction has no meaning yet; no arm raises it now. Safe. -/
  | notModelled (mnemonic : String)
  deriving DecidableEq, Repr

/-- The code table (R40) and its bookkeeping (R41). Entry `s` is `some code` when `CT[s].valid = 1`; an invalid entry's
content is irrelevant (R40) and not held. -/
structure CodeTable where
  entries : Vector (Option Bits) 256
  /-- TBL_COUNT -/
  count   : Nat
  /-- MIN_LEN -/
  minLen  : Nat
  /-- MAX_LEN -/
  maxLen  : Nat
  deriving DecidableEq, Repr

/-- DMEM: the locations written since the last reset, in strictly rising address order (`Memory.wf`). -/
abbrev Memory := List Host.Cell

/-- The state (R20). The last five fields, and `params`, are the model's own (log entries 1, 2, 3, 5). -/
structure State where
  /-- the implementation parameters, never written (R6, R7) -/
  params     : Params
  /-- SRC_ADDR (R28) -/
  srcAddr    : Word
  /-- SRC_LEN (R28) -/
  srcLen     : Word
  /-- DST_ADDR (R29) -/
  dstAddr    : Word
  /-- DST_CAP (R29) -/
  dstCap     : Word
  /-- VAL_ADDR (R30) -/
  valAddr    : Word
  /-- VAL_LEN (R30) -/
  valLen     : Word
  /-- OUT_LEN (R31) -/
  outLen     : Word
  /-- RES_SYM bits [7:0] (R32) -/
  resSym     : Byte
  /-- ERR_CODE bits [7:0] (R27) -/
  errCode    : Byte
  /-- STATUS.DONE (R26) -/
  done       : Bool
  /-- STATUS.ERR (R26) -/
  err        : Bool
  /-- STATUS.MATCH (R26) -/
  matched    : Bool
  /-- STATUS.DROPPED (R26) -/
  dropped    : Bool
  /-- INT_EN.DONE_IE (R34) -/
  intEn      : Bool
  /-- INT_PEND.DONE (R35) -/
  intPend    : Bool
  /-- the code table (R40, R41) -/
  table      : CodeTable
  /-- TBL_PRESENT (R42) -/
  tblPresent : Bool
  /-- DMEM (R60) -/
  mem        : Memory
  /-- the pending command's CMD word; BUSY = 1 exactly when there is one (R47) -/
  pending    : Option Word
  /-- the level of the reset input (R220) -/
  rst        : Bool
  /-- the coming events of the outside world, next one first -/
  inputs     : List Input
  /-- the response of the last host transaction (R63) -/
  response   : Option Response
  /-- the number of the next free value -/
  draws      : Nat
  /-- the draw that gives the DMEM bytes not written since the last reset (R221) -/
  dmemDraw   : Nat
  deriving DecidableEq, Repr

/-- The table after `reset_table()`: no entry, all bookkeeping 0 (R101). -/
def emptyTable : CodeTable :=
  { entries := Vector.replicate 256 none, count := 0, minLen := 0, maxLen := 0 }

/-- The machine right after reset, idle and with nothing coming in (R220, R221), at the reference parameters. -/
def State.reset : State :=
  { params := Config.reference
    srcAddr := 0, srcLen := 0, dstAddr := 0, dstCap := 0, valAddr := 0, valLen := 0
    outLen := 0, resSym := 0, errCode := 0
    done := false, err := false, matched := false, dropped := false
    intEn := false, intPend := false
    table := emptyTable, tblPresent := false
    mem := []
    pending := none
    rst := false
    inputs := []
    response := none
    draws := 1
    dmemDraw := 0 }

end Sys2Proof.Machine
end

