-- ==== Sys2Proof/Machine/Table.lean ====
section
/-! DEFINITION. The code table's operations: lookup (R40), `register` (R100) and the prefix-match engine (R131).
`reset_table` is `emptyTable` (R101). -/

namespace Sys2Proof.Machine

/-- `CT[s]`: the code of a symbol, `none` where `CT[s].valid = 0` (R40). -/
def CodeTable.lookup (t : CodeTable) (s : Symbol) : Option Bits :=
  t.entries[s.toNat]'s.isLt

/-- `register(s, c)` (R100). -/
def CodeTable.register (t : CodeTable) (s : Symbol) (c : Bits) : CodeTable :=
  { entries := t.entries.set s.toNat (some c) s.isLt
    count := t.count + 1
    minLen := if t.count = 0 then c.length else min t.minLen c.length
    maxLen := if t.count = 0 then c.length else max t.maxLen c.length }

/-- Does an entry hold a code of length `|pre|` whose form is `pre` (the set `S` of R131)? -/
def entryMatches {α : Type} [DecidableEq α] (form : Bits → List α) (pre : List α) (e : Option Bits) : Bool :=
  match e with
  | none => false
  | some c => decide (c.length = pre.length) && decide (form c = pre)

/-- `min S` of R131: the least symbol whose code's form is `pre`. -/
def CodeTable.findCode {α : Type} [DecidableEq α] (t : CodeTable) (form : Bits → List α) (pre : List α) :
    Option Symbol :=
  (t.entries.toList.findIdx? (entryMatches form pre)).map (BitVec.ofNat 8)

/-- The loop of R131 over candidate lengths in rising order. -/
def CodeTable.matchLengths {α : Type} [DecidableEq α] (t : CodeTable) (form : Bits → List α) (buf : List α) :
    List Nat → Option (Symbol × Nat)
  | [] => none
  | len :: rest =>
    if buf.length < len then none
    else
      match t.findCode form (buf.take len) with
      | some s => some (s, len)
      | none => t.matchLengths form buf rest

/-- `matchPrefix(buf, form)` (R131): the shortest match, then the least symbol. -/
def CodeTable.matchPrefix {α : Type} [DecidableEq α] (t : CodeTable) (form : Bits → List α) (buf : List α) :
    Option (Symbol × Nat) :=
  if t.count = 0 then none
  else if buf.length < t.minLen then none
  else t.matchLengths form buf (List.range' t.minLen (t.maxLen + 1 - t.minLen))

end Sys2Proof.Machine
end

