-- ==== Sys2Proof/Machine/Codec.lean ====
section
/-! DEFINITION. The bit-buffer encoder (R160 to R162) and decoder (R163 to R165). The bit buffer is transient (R46). -/

namespace Sys2Proof.Machine

/-- Code lookup and concatenation (R160); `none` when a source symbol has no code (R170). -/
def codeBits (t : CodeTable) : List Byte → Option Bits
  | [] => some []
  | s :: rest =>
    match t.lookup s, codeBits t rest with
    | some c, some bits => some (c ++ bits)
    | _, _ => none

/-- Framing (R161). -/
def frame (bits : Bits) : Bits := [true] ++ bits ++ [true]

/-- The number of bytes that hold `n` bits, `ceil(n / 8)` (R162). -/
def byteCount (n : Nat) : Nat := (n + 7) / 8

/-- Packing (R162): zero padding to whole bytes, then byte `k` from bits `8k` to `8k + 7`, MSB first. -/
def pack (framed : Bits) : List Byte :=
  let m := byteCount framed.length
  let padded := framed ++ List.replicate (8 * m - framed.length) false
  (List.range m).map (fun k => byteOf ((padded.drop (8 * k)).take 8))

/-- The output stream of ENCODE for a source (R170), `none` when a symbol has no code. -/
def encodeStream (t : CodeTable) (src : List Byte) : Option (List Byte) :=
  (codeBits t src).map (fun bits => pack (frame bits))

/-- `strip(raw)` (R164). The rule is for at least one raw byte; DECODE never strips an empty input (R175). -/
def strip : List Byte → Except CmdError Bits
  | [] => .ok []
  | first :: rest =>
    match first1 (bits8 first) with
    | none => .error .corruptStream
    | some f =>
      let head := (bits8 first).drop (f + 1)
      match rest.getLast? with
      | none =>
        match last1 head with
        | none => .error .corruptStream
        | some l => .ok (head.take l)
      | some last =>
        match last1 (bits8 last) with
        | none => .error .corruptStream
        | some l => .ok (head ++ rest.dropLast.flatMap bits8 ++ (bits8 last).take l)

/-- `decode_loop(buf)` (R165); `room` is what is left of DST_CAP, checked before each symbol is emitted. -/
def decodeLoop (t : CodeTable) : (room : Nat) → (buf : Bits) → Except CmdError (List Symbol)
  | _, [] => .ok []
  | room, b :: buf =>
    match t.matchPrefix id (b :: buf) with
    | none => .error .corruptStream
    | some (s, len) =>
      match room with
      | 0 => .error .capacityExceeded
      | room + 1 =>
        match decodeLoop t room ((b :: buf).drop len) with
        | .error e => .error e
        | .ok out => .ok (s :: out)

/-- DECODE's output for a non-empty raw input (R175). -/
def decodeStream (t : CodeTable) (cap : Nat) (raw : List Byte) : Except CmdError (List Symbol) :=
  match strip raw with
  | .error e => .error e
  | .ok buf => decodeLoop t cap buf

end Sys2Proof.Machine
end

