-- ==== Sys2Proof/Machine/Flags.lean ====
section
/-! DEFINITION. Error codes (R84), BUSY (R47), the STATUS word (R26), CFG (R24), the interrupt output (R48). -/

namespace Sys2Proof.Machine

/-- The ERR_CODE value of an error (R84). -/
def errorCode : CmdError → Byte
  | .invalidEntry => 1
  | .duplicateEntry => 2
  | .malformedCode => 3
  | .unknownSymbol => 4
  | .corruptStream => 5
  | .badCommand => 6
  | .rangeError => 7
  | .overlap => 8
  | .capacityExceeded => 9

/-- STATUS.BUSY: 1 from the accept of a command to its completion (R26, R47). -/
def State.busy (s : State) : Bool := s.pending.isSome

/-- A STATUS word from its six fields, bits [31:6] zero (R26). -/
def statusBits (busy done err matched present dropped : Bool) : Word :=
  BitVec.ofNat 32
    (busy.toNat + 2 * done.toNat + 4 * err.toNat + 8 * matched.toNat + 16 * present.toNat + 32 * dropped.toNat)

/-- The STATUS word while BUSY = 0 (R26). -/
def State.statusWord (s : State) : Word :=
  statusBits false s.done s.err s.matched s.tblPresent s.dropped

/-- The STATUS word as read while BUSY = 1: DONE, ERR and MATCH are 0 and TBL_PRESENT is any value `present`
(R26, R227). -/
def State.statusWordBusy (s : State) (present : Bool) : Word :=
  statusBits true false false false present s.dropped

/-- The ID register (R24). -/
def idWord : Word := 0x48434331

/-- The CFG register: bits [4:0] `log2(DMEM_SIZE)`, bits [20:5] `CODE_LEN_MAX`, bits [31:21] zero (R24). -/
def cfgWord (p : Params) : Word :=
  (0 : BitVec 11) ++ (BitVec.ofNat 16 p.codeLenMax) ++ (BitVec.ofNat 5 p.dmemLog2)

/-- The interrupt output, a level (R48). -/
def State.irq (s : State) : Bool := s.intPend && s.intEn

end Sys2Proof.Machine
end

