-- ==== Sys2Proof/Machine/Memory.lean ====
section
/-! DEFINITION. DMEM (R60): one canonical list of written locations. A location that is not listed has not been written
since the last reset and holds a free value (R221, log entry 6). -/

namespace Sys2Proof.Machine

/-- `DMEM_SIZE` (R6). -/
def dmemSize (p : Params) : Nat := 2 ^ p.dmemLog2

/-- The written byte at an address, `none` at a location not written since the last reset. -/
def Memory.find (m : Memory) (a : Nat) : Option Byte :=
  match m with
  | [] => none
  | (b, v) :: rest => if a = b then some v else Memory.find rest a

/-- One byte written; the list stays in rising address order. -/
def Memory.write (m : Memory) (a : Nat) (v : Byte) : Memory :=
  match m with
  | [] => [(a, v)]
  | (b, w) :: rest =>
    if a < b then (a, v) :: (b, w) :: rest
    else if a = b then (a, v) :: rest
    else (b, w) :: Memory.write rest a v

/-- `MemWrite(a, |bs|, bs)` (R12): the bytes of `bs` from address `a` on. -/
def Memory.writeBytes (m : Memory) (a : Nat) (bs : List Byte) : Memory :=
  match bs with
  | [] => m
  | b :: rest => Memory.writeBytes (Memory.write m a b) (a + 1) rest

/-- The canonical form: addresses strictly rising and all in DMEM. Nothing listed equals what an unlisted address is,
since an unlisted address holds no written byte. -/
def Memory.wf (p : Params) (m : Memory) : Bool :=
  match m with
  | [] => true
  | (a, _) :: rest =>
    decide (a < dmemSize p) && rest.all (fun c => decide (a < c.1)) && Memory.wf p rest

/-- The byte DMEM holds at a location: the byte written last, or the free value of the draw made at the last reset. -/
def State.readByte (s : State) (a : Nat) : Byte :=
  (Memory.find s.mem a).getD (Config.freeByte s.dmemDraw a)

/-- `MemRead(a, n)` (R12). -/
def State.memRead (s : State) (a n : Nat) : List Byte :=
  (List.range n).map (fun i => s.readByte (a + i))

end Sys2Proof.Machine
end

