-- ==== Sys2Proof/Machine/Operands.lean ====
section
/-! DEFINITION. The commands' operands: register values read as unscaled natural numbers (R81), the DMEM ranges they name
(R28 to R30) and the two operand checks (R194). -/

namespace Sys2Proof.Machine

/-- `check_range` passes (R194): in unbounded arithmetic, a range of length 0 whatever its base. -/
def inDmem (p : Params) (base len : Word) : Bool :=
  decide (len.toNat = 0 ∨ base.toNat + len.toNat ≤ dmemSize p)

/-- `check_overlap` raises (R194). -/
def overlaps (a la b lb : Word) : Bool :=
  decide (0 < la.toNat ∧ 0 < lb.toNat ∧ a.toNat < b.toNat + lb.toNat ∧ b.toNat < a.toNat + la.toNat)

/-- The source range is in DMEM. -/
def State.srcOk (s : State) : Bool := inDmem s.params s.srcAddr s.srcLen

/-- The destination range is in DMEM. -/
def State.dstOk (s : State) : Bool := inDmem s.params s.dstAddr s.dstCap

/-- The value range is in DMEM. -/
def State.valOk (s : State) : Bool := inDmem s.params s.valAddr s.valLen

/-- The source and destination ranges overlap. -/
def State.srcDstOverlap (s : State) : Bool := overlaps s.srcAddr s.srcLen s.dstAddr s.dstCap

/-- `MemRead(SRC_ADDR, SRC_LEN)`. -/
def State.srcBytes (s : State) : List Byte := s.memRead s.srcAddr.toNat s.srcLen.toNat

/-- `MemRead(VAL_ADDR, VAL_LEN)`. -/
def State.valBytes (s : State) : List Byte := s.memRead s.valAddr.toNat s.valLen.toNat

/-- `MemRead(SRC_ADDR, 1)[0]`: the symbol argument of SET and GET (R120, R125). -/
def State.entrySymbol (s : State) : Symbol := s.readByte s.srcAddr.toNat

end Sys2Proof.Machine
end

