-- ==== Sys2Proof/Machine/TreeBuilder.lean ====
section
/-! DEFINITION. The Huffman tree builder (R102 to R111): frequency counter, min-heap merge, tree walk. All of its data
is transient (R44, R45) and none of it is in State. -/

namespace Sys2Proof.Machine

/-- A merge-tree node (R45). -/
inductive Tree where
  | leaf (sym : Symbol) (weight : Nat)
  | node (weight : Nat) (first second : Tree)
  deriving DecidableEq, Repr

/-- A node's weight (R45). -/
def Tree.weight : Tree → Nat
  | .leaf _ w => w
  | .node w _ _ => w

/-- An element of the merge queue: a node and its insertion sequence number (R45). -/
structure QNode where
  seq  : Nat
  tree : Tree
  deriving DecidableEq, Repr

/-- The order of the merge queue: weight first, then sequence number (R104). -/
def QNode.before (a b : QNode) : Bool :=
  decide (a.tree.weight < b.tree.weight ∨ (a.tree.weight = b.tree.weight ∧ a.seq < b.seq))

/-- All symbols, ascending (R8). -/
def allSymbols : List Symbol := (List.range 256).map (BitVec.ofNat 8)

/-- `FREQ[s]` (R102). -/
def freq (src : List Byte) (s : Symbol) : Nat := src.count s

/-- The distinct symbols of the source, ascending (R102, R103). -/
def leafSymbols (src : List Byte) : List Symbol :=
  allSymbols.filter (fun s => decide (0 < freq src s))

/-- The merge queue before the first merge: leaf `k` has sequence number `k` and its frequency as weight (R103). -/
def initialQueue (src : List Byte) : List QNode :=
  (leafSymbols src).zipIdx.map (fun x => { seq := x.2, tree := .leaf x.1 (freq src x.1) })

/-- The node of least key and the rest of the queue (R104). -/
def popLeast : List QNode → Option (QNode × List QNode)
  | [] => none
  | q :: qs =>
    match popLeast qs with
    | none => some (q, [])
    | some (m, rest) => if m.before q then some (m, q :: rest) else some (q, qs)

/-- The merge loop of R104, at most `fuel` merges; `seq` is the next sequence number. A queue of one node is done. -/
def mergeLoop (fuel seq : Nat) (q : List QNode) : List QNode :=
  match fuel with
  | 0 => q
  | fuel + 1 =>
    match popLeast q with
    | none => q
    | some (a, q1) =>
      match popLeast q1 with
      | none => q
      | some (b, q2) =>
        mergeLoop fuel (seq + 1)
          (q2 ++ [{ seq := seq, tree := .node (a.tree.weight + b.tree.weight) a.tree b.tree }])

/-- `walk(node, path)` (R106): 0 into the first child, 1 into the second, each leaf registered with its path. -/
def walk : Tree → Bits → CodeTable → CodeTable
  | .leaf s _, path, t => t.register s path
  | .node _ first second, path, t => walk second (path ++ [true]) (walk first (path ++ [false]) t)

/-- `build(src)` (R111): no symbol leaves the table empty (R109), one symbol gets the code "0" (R108). -/
def buildTable (src : List Byte) : CodeTable :=
  match leafSymbols src with
  | [] => emptyTable
  | [s] => emptyTable.register s [false]
  | leaves =>
    match mergeLoop leaves.length leaves.length (initialQueue src) with
    | [] => emptyTable
    | root :: _ => walk root.tree [] emptyTable

end Sys2Proof.Machine
end

