-- ==== Sys2Proof/Machine/Ops.lean ====
section
/-! DEFINITION. The named operations on the state that the commands share: accept (R190), completion (R191), raising an
error (R192, R197), the writes to results, table and destination, and the model's own bookkeeping. -/

namespace Sys2Proof.Machine

/-- Accept (R190): the CMD word is pending and the outcome of the last command is cleared. -/
def State.accept (s : State) (w : Word) : State :=
  { s with pending := some w, done := false, err := false, matched := false, dropped := false
           errCode := 0, outLen := 0, resSym := 0 }

/-- The completion record (R191): `none` without an error, else the error raised. -/
def State.complete (s : State) (e : Option CmdError) : State :=
  { s with pending := none, done := true, intPend := true
           errCode := (e.map errorCode).getD 0
           err := (e.map errorCode).getD 0 != 0 }

/-- What R197 (d) says of the result registers after an error: OUT_LEN, RES_SYM and STATUS.MATCH are 0. -/
def State.clearResults (s : State) : State :=
  { s with outLen := 0, resSym := 0, matched := false }

/-- OUT_LEN, written at completion (R31). -/
def State.setOutLen (s : State) (n : Nat) : State :=
  { s with outLen := BitVec.ofNat 32 n }

/-- `raise E` (R192): the rest of the rule does not run, the effects of R197 apply, the completion records `E`. This
is the one place where a command ends with an error. -/
def State.raise (s : State) (e : CmdError) : State :=
  s.clearResults.complete (some e)

/-- The end of a command without an error, OUT_LEN being `n` (R31, R191). -/
def State.succeed (s : State) (n : Nat) : State :=
  (s.setOutLen n).complete none

/-- The code table and TBL_PRESENT replaced (R42). -/
def State.setTable (s : State) (t : CodeTable) (present : Bool) : State :=
  { s with table := t, tblPresent := present }

/-- What a MATCH that found symbol `sym` by `len` buffer bytes writes (R130), OUT_LEN apart. -/
def State.setMatch (s : State) (sym : Symbol) (len : Nat) : State :=
  { s with resSym := sym, matched := true
           srcAddr := s.srcAddr + BitVec.ofNat 32 len
           srcLen := s.srcLen - BitVec.ofNat 32 len }

/-- STATUS.MATCH <- 0 of a MATCH without a match (R130). -/
def State.setNoMatch (s : State) : State :=
  { s with matched := false }

/-- DMEM replaced. -/
def State.setMem (s : State) (m : Memory) : State :=
  { s with mem := m }

/-- `MemWrite(DST_ADDR, |bs|, bs)` (R12). -/
def State.writeDst (s : State) (bs : List Byte) : State :=
  s.setMem (Memory.writeBytes s.mem s.dstAddr.toNat bs)

/-- One free value used. -/
def State.nextDraw (s : State) : State :=
  { s with draws := s.draws + 1 }

/-- The destination range after an ENCODE or DECODE that ended with UnknownSymbol, CorruptStream or CapacityExceeded:
each of its bytes holds any value, drawn now and stable afterwards (R197 b). -/
def State.scrambleDst (s : State) : State :=
  (s.writeDst ((List.range s.dstCap.toNat).map (fun i => Config.freeByte s.draws (s.dstAddr.toNat + i)))).nextDraw

/-- The table ENCODE works with: the present one, or one built from the source and retained (R170). -/
def State.ensureTable (s : State) : State :=
  if s.tblPresent then s else s.setTable (buildTable s.srcBytes) true

/-- The response of a host transaction (R63). -/
def State.respond (s : State) (r : Response) : State :=
  { s with response := some r }

/-- The coming inputs replaced. -/
def State.setInputs (s : State) (is : List Input) : State :=
  { s with inputs := is }

/-- `rst` asserted (R220, R221): the reset state, DMEM freshly unspecified, with the reset input high. What is no state
of CORE (the parameters, the coming inputs, the draw counter) goes on. -/
def State.assertReset (s : State) : State :=
  { State.reset with params := s.params, rst := true, inputs := s.inputs, draws := s.draws + 1, dmemDraw := s.draws }

/-- `rst` released: CORE is idle in its reset state (R220). -/
def State.releaseReset (s : State) : State :=
  { s with rst := false }

end Sys2Proof.Machine
end

