-- ==== Sys2Proof/Machine/CodecCommands.lean ====
section
/-! DEFINITION. The Codec commands: ENCODE and DECODE (41_codec.md). -/

namespace Sys2Proof.Machine

/-- The operand checks that ENCODE and DECODE share, in order (R170, R175, R196). -/
def codecOperandError (s : State) : Option CmdError :=
  if !s.srcOk then some .rangeError
  else if !s.dstOk then some .rangeError
  else if s.srcDstOverlap then some .overlap
  else none

/-- ENCODE (R170). A table built here stays, whatever follows; an error found after the operand checks leaves any value
in the destination range (R197). -/
def execEncode (s : State) : Host.Outcome State Fault Refusal :=
  match codecOperandError s with
  | some e => .next (s.raise e)
  | none =>
    if s.srcLen = 0 then .next (s.succeed 0)
    else
      match encodeStream s.ensureTable.table s.srcBytes with
      | none => .next (s.ensureTable.scrambleDst.raise .unknownSymbol)
      | some out =>
        if s.dstCap.toNat < out.length then .next (s.ensureTable.scrambleDst.raise .capacityExceeded)
        else .next ((s.ensureTable.writeDst out).succeed out.length)

/-- DECODE (R175). -/
def execDecode (s : State) : Host.Outcome State Fault Refusal :=
  match codecOperandError s with
  | some e => .next (s.raise e)
  | none =>
    if s.srcLen = 0 then .next (s.succeed 0)
    else
      match decodeStream s.table s.dstCap.toNat s.srcBytes with
      | .error e => .next (s.scrambleDst.raise e)
      | .ok out => .next ((s.writeDst out).succeed out.length)

end Sys2Proof.Machine
end

