-- ==== Sys2Proof/Machine/TableCommands.lean ====
section
/-! DEFINITION. The CodeTable commands: GENERATE, SET, GET, MATCH, CLEAR (40_codetable.md). The checks of a command are
listed in the order in which they are reported (R196). -/

namespace Sys2Proof.Machine

/-- GENERATE (R110). -/
def execGenerate (s : State) : Host.Outcome State Fault Refusal :=
  if s.srcOk then .next ((s.setTable (buildTable s.srcBytes) true).succeed 0)
  else .next (s.raise .rangeError)

/-- The error SET ends with, in the order of R120 (R121, R193, R196). -/
def setError (s : State) : Option CmdError :=
  if !s.srcOk then some .rangeError
  else if !s.valOk then some .rangeError
  else if s.srcLen ≠ 1 then some .invalidEntry
  else if (s.table.lookup s.entrySymbol).isSome then some .duplicateEntry
  else if s.valLen.toNat = 0 ∨ s.params.codeLenMax < s.valLen.toNat then some .malformedCode
  else if !s.valBytes.all isCodeChar then some .malformedCode
  else none

/-- SET (R120). -/
def execSet (s : State) : Host.Outcome State Fault Refusal :=
  match setError s with
  | some e => .next (s.raise e)
  | none => .next ((s.setTable (s.table.register s.entrySymbol (bitsOfChars s.valBytes)) true).succeed 0)

/-- What GET's checks answer, in the order of R125 (R193, R196): the code to write, or the error. -/
def getCode (s : State) : Except CmdError Bits :=
  if !s.srcOk then .error .rangeError
  else if !s.dstOk then .error .rangeError
  else if s.srcDstOverlap then .error .overlap
  else if s.srcLen ≠ 1 then .error .invalidEntry
  else
    match s.table.lookup s.entrySymbol with
    | none => .error .unknownSymbol
    | some c => if s.dstCap.toNat < c.length then .error .capacityExceeded else .ok c

/-- GET (R125). -/
def execGet (s : State) : Host.Outcome State Fault Refusal :=
  match getCode s with
  | .error e => .next (s.raise e)
  | .ok c => .next ((s.writeDst (chars c)).succeed c.length)

/-- MATCH (R130): no match is a result, not an error. -/
def execMatchPrefix (s : State) : Host.Outcome State Fault Refusal :=
  if s.srcOk then
    match s.table.matchPrefix chars s.srcBytes with
    | some (sym, len) => .next ((s.setMatch sym len).succeed len)
    | none => .next (s.setNoMatch.succeed 0)
  else .next (s.raise .rangeError)

/-- CLEAR (R140). -/
def execClear (s : State) : Host.Outcome State Fault Refusal :=
  .next ((s.setTable emptyTable false).succeed 0)

end Sys2Proof.Machine
end

