-- ==== Sys2Proof/Machine/HostPort.lean ====
section
/-! DEFINITION. The host slave port: the address map (R62), access rules (R63 to R66), the register window (R23 to R37) and
the rules for accesses while BUSY = 1 (R226, R227). -/

namespace Sys2Proof.Machine

/-- The registers of the window (R23). -/
inductive HostReg where
  | id | cfg | cmd | status | errCode
  | srcAddr | srcLen | dstAddr | dstCap | valAddr | valLen
  | outLen | resSym | tblCount | minLen | maxLen
  | intEn | intPend
  | reserved
  deriving DecidableEq, Repr

/-- The register at a window offset that is a multiple of 4 (R23); 0x048 to 0x0FC are reserved (R36). -/
def regAt (off : Nat) : HostReg :=
  match off with
  | 0x000 => .id
  | 0x004 => .cfg
  | 0x008 => .cmd
  | 0x00C => .status
  | 0x010 => .errCode
  | 0x014 => .srcAddr
  | 0x018 => .srcLen
  | 0x01C => .dstAddr
  | 0x020 => .dstCap
  | 0x024 => .valAddr
  | 0x028 => .valLen
  | 0x02C => .outLen
  | 0x030 => .resSym
  | 0x034 => .tblCount
  | 0x038 => .minLen
  | 0x03C => .maxLen
  | 0x040 => .intEn
  | 0x044 => .intPend
  | _ => .reserved

/-- What a host offset names (R62). -/
inductive Target where
  | reg (r : HostReg)
  | dmem (loc : Nat)
  | unmapped
  deriving DecidableEq, Repr

/-- The bytes a size counts (R63). -/
def sizeBytes : Size → Nat
  | .b1 => 1
  | .b2 => 2
  | .b4 => 4

/-- The size of a datum (R63). -/
def datumSize : Datum → Size
  | .w8 _ => .b1
  | .w16 _ => .b2
  | .w32 _ => .b4

/-- The first host offset of the DMEM window (R62). -/
def dmemBase : Nat := 0x01000000

/-- The target of an access: `unmapped` stands for every access that gets an error response, an unmapped offset (R62), a
register access that is not 4 bytes at a multiple of 4 (R65), a misaligned DMEM access (R66). -/
def target (p : Params) (offset : Word) (size : Size) : Target :=
  if offset.toNat < 0x100 then
    if size = .b4 ∧ offset.toNat % 4 = 0 then .reg (regAt offset.toNat) else .unmapped
  else if dmemBase ≤ offset.toNat ∧ offset.toNat < dmemBase + dmemSize p then
    if offset.toNat % sizeBytes size = 0 then .dmem (offset.toNat - dmemBase) else .unmapped
  else .unmapped

/-- A DMEM read of a size, little-endian (R66). -/
def State.readDatum (s : State) (loc : Nat) : Size → Datum
  | .b1 => .w8 (s.readByte loc)
  | .b2 => .w16 (s.readByte (loc + 1) ++ s.readByte loc)
  | .b4 => .w32 (s.readByte (loc + 3) ++ s.readByte (loc + 2) ++ s.readByte (loc + 1) ++ s.readByte loc)

/-- The bytes a DMEM write stores, in address order (R66). -/
def datumBytes : Datum → List Byte
  | .w8 v => [v]
  | .w16 v => [v.extractLsb' 0 8, v.extractLsb' 8 8]
  | .w32 v => [v.extractLsb' 0 8, v.extractLsb' 8 8, v.extractLsb' 16 8, v.extractLsb' 24 8]

/-- Any value of a size, from a free word (R227). -/
def freeDatum (w : Word) : Size → Datum
  | .b1 => .w8 (w.setWidth 8)
  | .b2 => .w16 (w.setWidth 16)
  | .b4 => .w32 w

/-- A register's value while BUSY = 0 (R23 to R36). -/
def State.regValue (s : State) : HostReg → Word
  | .id => idWord
  | .cfg => cfgWord s.params
  | .cmd => 0
  | .status => s.statusWord
  | .errCode => s.errCode.setWidth 32
  | .srcAddr => s.srcAddr
  | .srcLen => s.srcLen
  | .dstAddr => s.dstAddr
  | .dstCap => s.dstCap
  | .valAddr => s.valAddr
  | .valLen => s.valLen
  | .outLen => s.outLen
  | .resSym => s.resSym.setWidth 32
  | .tblCount => BitVec.ofNat 32 s.table.count
  | .minLen => BitVec.ofNat 32 s.table.minLen
  | .maxLen => BitVec.ofNat 32 s.table.maxLen
  | .intEn => if s.intEn then 1 else 0
  | .intPend => if s.intPend then 1 else 0
  | .reserved => 0

/-- A register's value as read while BUSY = 1, where it is not the true one (R227): STATUS with any TBL_PRESENT, and
any value of the result and table registers. -/
def State.busyRegValue (s : State) : HostReg → Option Word
  | .status => some (s.statusWordBusy (Config.freeBit s.draws))
  | .errCode | .outLen | .resSym | .tblCount | .minLen | .maxLen => some (Config.freeWord s.draws)
  | .id | .cfg | .cmd | .srcAddr | .srcLen | .dstAddr | .dstCap | .valAddr | .valLen | .intEn | .intPend
  | .reserved => none

/-- A host read of a register (R37, R227). -/
def State.readReg (s : State) (r : HostReg) : State :=
  if s.busy then
    match s.busyRegValue r with
    | some v => s.nextDraw.respond (.data (.w32 v))
    | none => s.respond (.data (.w32 (s.regValue r)))
  else s.respond (.data (.w32 (s.regValue r)))

/-- The effect of a host write to a register (R25 to R37, R226): operand registers only while BUSY = 0, INT_EN and
INT_PEND always, CMD accepted or dropped, RO and reserved registers ignored. -/
def State.putReg (s : State) (r : HostReg) (v : Word) : State :=
  match r with
  | .cmd => if s.busy then { s with dropped := true } else s.accept v
  | .intEn => { s with intEn := v.getLsbD 0 }
  | .intPend => if v.getLsbD 0 then { s with intPend := false } else s
  | .srcAddr => if s.busy then s else { s with srcAddr := v }
  | .srcLen => if s.busy then s else { s with srcLen := v }
  | .dstAddr => if s.busy then s else { s with dstAddr := v }
  | .dstCap => if s.busy then s else { s with dstCap := v }
  | .valAddr => if s.busy then s else { s with valAddr := v }
  | .valLen => if s.busy then s else { s with valLen := v }
  | .id | .cfg | .status | .errCode | .outLen | .resSym | .tblCount | .minLen | .maxLen | .reserved => s

/-- A host read (R63): an error response leaves everything unchanged. While BUSY a DMEM read returns any value (R227). -/
def State.hostRead (s : State) (offset : Word) (size : Size) : State :=
  match target s.params offset size with
  | .reg r => s.readReg r
  | .dmem loc =>
    if s.busy then s.nextDraw.respond (.data (freeDatum (Config.freeWord s.draws) size))
    else s.respond (.data (s.readDatum loc size))
  | .unmapped => s.respond .error

/-- A host write (R63). While BUSY a DMEM write is dropped, with an ok response (R226). -/
def State.hostWrite (s : State) (offset : Word) (d : Datum) : State :=
  match target s.params offset (datumSize d), d with
  | .reg r, .w32 v => (s.putReg r v).respond .done
  | .dmem loc, d =>
    if s.busy then s.respond .done
    else (s.setMem (Memory.writeBytes s.mem loc (datumBytes d))).respond .done
  | _, _ => s.respond .error

/-- One host transaction (R63, R64). -/
def State.hostTxn (s : State) : Txn → State
  | .read offset size => s.hostRead offset size
  | .write offset d => s.hostWrite offset d

end Sys2Proof.Machine
end

