-- ==== Sys2Proof/Machine/Engine.lean ====
section
/-! DEFINITION. The engine's step (R191) and the events of the outside world. -/

namespace Sys2Proof.Machine

/-- The engine's step: enabled while a command is pending, it decodes the pending word and runs its command to the
completion; an illegal word completes with BadCommand (R191, R195). With nothing pending, nothing happens. -/
def engineStep (s : State) : Host.Outcome State Fault Refusal :=
  match s.pending with
  | none => .next s
  | some w =>
    match decode w with
    | .ok i => exec i s
    | .error _ => .next (s.raise .badCommand)

/-- One event, in a state whose input list it has left. -/
def perform (i : Input) (s : State) : Host.Outcome State Fault Refusal :=
  match i with
  | .engine => engineStep s
  | .host t => if s.rst then .fault .hostDuringReset else .next (s.hostTxn t)
  | .rstAssert => .next s.assertReset
  | .rstRelease => .next s.releaseReset

/-- One step: the next event, or, when no event is coming, the engine (which a pending command keeps enabled, R191,
R234). -/
def machineStep (s : State) : Host.Outcome State Fault Refusal :=
  match s.inputs with
  | [] => engineStep s
  | i :: rest => perform i (s.setInputs rest)

/-- The state in which CMD word `w` has just been accepted and the engine's turn comes next: how a command is fetched
(R73, R190). -/
def State.fetching (s : State) (w : Word) : State :=
  (s.accept w).releaseReset.setInputs (.engine :: s.inputs)

end Sys2Proof.Machine
end

