-- ==== Sys2Proof/Machine/Step.lean ====
section
/-! DEFINITION. The machine's step, and the state whose next step runs a given command. -/

namespace Sys2Proof.Machine

/-- One step of CORE. -/
def step (s : State) : Host.Outcome State Fault Refusal := machineStep s

/-- `s` with the command of an opcode-table word accepted and the engine's turn next, so that the very next step runs
it (log entry 10). Nothing is fetched from memory (R73): the fetched word is the pending one. -/
def State.withFetchWord (s : State) (nbits w : Nat) : State :=
  s.fetching (BitVec.ofNat 32 (w % 2 ^ nbits))

end Sys2Proof.Machine
end

