-- ==== Sys2Proof/WellFormed.lean ====
section
/-! DEFINITION. Well-formedness checks on plain data. An `Instr` carries no operand, so every term of it is well formed;
what can be ill formed is a parameter set, a code and a command word. -/

namespace Sys2Proof

/-- The constraints on the parameters: `10 <= k <= 24` (R6) and `255 <= CODE_LEN_MAX <= 65535` (R7). -/
def Params.wf (p : Params) : Bool :=
  decide (10 ≤ p.dmemLog2 ∧ p.dmemLog2 ≤ 24 ∧ 255 ≤ p.codeLenMax ∧ p.codeLenMax ≤ 65535)

/-- The constraint on the code of a valid entry: `1 <= |code| <= CODE_LEN_MAX` (R40). -/
def codeWf (p : Params) (c : Bits) : Bool :=
  decide (1 ≤ c.length ∧ c.length ≤ p.codeLenMax)

/-- A legal CMD word: OPCODE 0x01 to 0x07 and bits [31:8] zero (R83, R195), said of the word as one number. -/
def cmdWordWf (w : Word) : Bool :=
  decide (1 ≤ w.toNat ∧ w.toNat ≤ 7)

end Sys2Proof
end

