-- ==== Sys2Proof/Safety.lean ====
section
/-! DEFINITION. The terms the statements use: operand ranges, properties of a code table, the merge tree's paths, the
reference merge of R105, what a completed state and a reset state are, whose turn a step was, and the invariant. -/

namespace Sys2Proof.Machine

/-! ### Operand ranges (R194) -/

/-- The range `(base, len)` passes `check_range` (R194). -/
abbrev InRange (p : Params) (base len : Word) : Prop :=
  len.toNat = 0 ∨ base.toNat + len.toNat ≤ 2 ^ p.dmemLog2

/-- The ranges `(a, la)` and `(b, lb)` intersect, neither being empty (R194). -/
abbrev Overlapping (a la b lb : Word) : Prop :=
  0 < la.toNat ∧ 0 < lb.toNat ∧ a.toNat < b.toNat + lb.toNat ∧ b.toNat < a.toNat + la.toNat

/-- The operand checks of GET, ENCODE and DECODE all pass. -/
abbrev State.RangesPass (s : State) : Prop :=
  InRange s.params s.srcAddr s.srcLen ∧ InRange s.params s.dstAddr s.dstCap ∧
    ¬ Overlapping s.srcAddr s.srcLen s.dstAddr s.dstCap

/-- Address `a` lies in the destination range (R29). -/
abbrev State.InDst (s : State) (a : Nat) : Prop :=
  s.dstAddr.toNat ≤ a ∧ a < s.dstAddr.toNat + s.dstCap.toNat

/-! ### Code tables -/

/-- The bookkeeping of a table (R41). -/
structure CodeTable.Bookkept (t : CodeTable) : Prop where
  count_eq  : t.count = (allSymbols.filter (fun s => (t.lookup s).isSome)).length
  empty_min : t.count = 0 → t.minLen = 0 ∧ t.maxLen = 0
  min_le    : ∀ s c, t.lookup s = some c → t.minLen ≤ c.length
  le_max    : ∀ s c, t.lookup s = some c → c.length ≤ t.maxLen
  min_mem   : t.count ≠ 0 → ∃ s c, t.lookup s = some c ∧ c.length = t.minLen
  max_mem   : t.count ≠ 0 → ∃ s c, t.lookup s = some c ∧ c.length = t.maxLen

/-- Every code of the table is one an entry may hold (R40). -/
def CodeTable.CodesLegal (p : Params) (t : CodeTable) : Prop :=
  ∀ s c, t.lookup s = some c → codeWf p c = true

/-- No code is a prefix of another symbol's code (R107). -/
def CodeTable.PrefixFree (t : CodeTable) : Prop :=
  ∀ a b ca cb, t.lookup a = some ca → t.lookup b = some cb → ca <+: cb → a = b

/-- The code of a symbol, the empty string where it has none. -/
def CodeTable.codeOf (t : CodeTable) (s : Symbol) : Bits := (t.lookup s).getD []

/-- The codes of a byte string, one after another (R160). -/
def CodeTable.codesOf (t : CodeTable) (src : List Byte) : Bits := (src.map t.codeOf).flatten

/-- A code that serves to decode: bookkept, every code non-empty, no code a prefix of another. -/
structure CodeTable.Decodes (t : CodeTable) : Prop where
  bookkept   : t.Bookkept
  nonempty   : ∀ s, t.lookup s ≠ some []
  prefixFree : t.PrefixFree

/-- `Consumes t buf out rest`: successive prefix matches of `t` take `out` off the front of `buf` and leave `rest`
(R165). -/
inductive Consumes (t : CodeTable) : Bits → List Symbol → Bits → Prop where
  | done (buf : Bits) : Consumes t buf [] buf
  | symbol {buf rest : Bits} {out : List Symbol} {y : Symbol} {n : Nat} (hb : buf ≠ [])
      (hm : t.matchPrefix id buf = some (y, n)) (h : Consumes t (buf.drop n) out rest) : Consumes t buf (y :: out) rest

/-- The table ENCODE uses: the present one, or one built from the source (R170). -/
def State.encodeTable (s : State) : CodeTable :=
  if s.tblPresent then s.table else buildTable s.srcBytes

/-! ### Merge trees -/

/-- `PathTo t c s`: the path from the root of `t` to the leaf of `s` is `c`, 0 for a first child and 1 for a second
(R106). -/
inductive PathTo : Tree → Bits → Symbol → Prop where
  | leaf (s : Symbol) (w : Nat) : PathTo (.leaf s w) [] s
  | first {a : Tree} {c : Bits} {s : Symbol} (w : Nat) (b : Tree) (h : PathTo a c s) : PathTo (.node w a b) (false :: c) s
  | second {b : Tree} {c : Bits} {s : Symbol} (w : Nat) (a : Tree) (h : PathTo b c s) : PathTo (.node w a b) (true :: c) s

/-- The leaf symbols of a tree, first child first. -/
def Tree.symbols : Tree → List Symbol
  | .leaf s _ => [s]
  | .node _ a b => a.symbols ++ b.symbols

/-- The source's reference procedure (R105): stable sort by weight before each pop, two popped from the front, the new
node appended at the end. -/
def refMerge : (fuel : Nat) → List Tree → List Tree
  | 0, l => l
  | fuel + 1, l =>
    match l.insertionSort (fun a b => a.weight ≤ b.weight) with
    | a :: b :: rest => refMerge fuel (rest ++ [.node (a.weight + b.weight) a b])
    | short => short

/-! ### States -/

/-- The completion record without an error (R191). -/
def State.completedOk (s : State) : State :=
  { s with pending := none, done := true, intPend := true, errCode := 0, err := false }

/-- The spec's state is the reset state (R220): every register at its reset value, no table, no pending command. -/
structure State.AtReset (s : State) : Prop where
  operands  : s.srcAddr = 0 ∧ s.srcLen = 0 ∧ s.dstAddr = 0 ∧ s.dstCap = 0 ∧ s.valAddr = 0 ∧ s.valLen = 0
  results   : s.outLen = 0 ∧ s.resSym = 0 ∧ s.errCode = 0
  status    : s.done = false ∧ s.err = false ∧ s.matched = false ∧ s.dropped = false ∧ s.tblPresent = false
  interrupt : s.intEn = false ∧ s.intPend = false
  noEntry   : ∀ y, s.table.lookup y = none
  counts    : s.table.count = 0 ∧ s.table.minLen = 0 ∧ s.table.maxLen = 0
  idle      : s.pending = none

/-- The next step is the engine's turn. -/
abbrev State.EngineTurn (s : State) : Prop :=
  s.inputs = [] ∨ s.inputs.head? = some .engine

/-- The next step runs command `i`. -/
def State.Runs (s : State) (i : Instr) : Prop :=
  s.EngineTurn ∧ ∃ w, s.pending = some w ∧ decode w = .ok i

/-- The next step performs host transaction `t`. -/
abbrev State.Hosts (s : State) (t : Txn) : Prop :=
  s.inputs.head? = some (.host t)

/-- The next step asserts `rst`. -/
abbrev State.Resets (s : State) : Prop :=
  s.inputs.head? = some .rstAssert

/-- The host offsets of the six operand registers (R23). -/
def operandOffsets : List Word := [0x014, 0x018, 0x01C, 0x020, 0x024, 0x028]

/-- The number a transaction's data stands for. -/
def datumNat : Datum → Nat
  | .w8 v => v.toNat
  | .w16 v => v.toNat
  | .w32 v => v.toNat

/-- An access that R62, R65 or R66 answers with an error response. -/
abbrev BadAccess (p : Params) (offset : Word) (size : Size) : Prop :=
  (offset.toNat < 0x100 ∧ (size ≠ .b4 ∨ offset.toNat % 4 ≠ 0)) ∨
  (0x100 ≤ offset.toNat ∧ offset.toNat < 0x01000000) ∨
  (0x01000000 ≤ offset.toNat ∧ offset.toNat < 0x01000000 + 2 ^ p.dmemLog2 ∧ offset.toNat % sizeBytes size ≠ 0) ∨
  0x01000000 + 2 ^ p.dmemLog2 ≤ offset.toNat

/-! ### The invariant -/

/-- What every step keeps: legal parameters, canonical DMEM inside its size, R40 and R41 of the table, R42 of an absent
table, cleared outcome fields until a command completes (R190), R26 of ERR and MATCH, a legal error code (R84), fresh
draws, and the reset state while `rst` is asserted (R220). -/
structure Invariant (s : State) : Prop where
  params     : s.params.wf = true
  memory     : Memory.wf s.params s.mem = true
  bookkept   : s.table.Bookkept
  codesLegal : s.table.CodesLegal s.params
  absent     : s.tblPresent = false → ∀ y, s.table.lookup y = none
  busyNew    : s.busy = true → s.done = false
  cleared    : s.done = false → s.err = false ∧ s.matched = false ∧ s.errCode = 0 ∧ s.outLen = 0 ∧ s.resSym = 0
  errFlag    : s.err = true ↔ s.errCode ≠ 0
  errRange   : s.errCode.toNat ≤ 9
  errResults : s.err = true → s.outLen = 0 ∧ s.resSym = 0 ∧ s.matched = false
  fresh      : s.dmemDraw < s.draws
  underReset : s.rst = true → s.AtReset

end Sys2Proof.Machine
end

