-- ==== Sys2Proof/Certificates/Slice0/Obligations.lean ====
section
/-! DEFINITION. The statements for the provers. Each docstring names the rule of spec/ it formalises. -/

open Sys2Proof Sys2Proof.Machine

/-! ### Encoding -/

/-- R82: each command matches one whole word, the seven of the opcode map. -/
def Obligations.CommandWordsDecode : Prop :=
  ∀ w : Word,
    (decode w = .ok .generate ↔ w = 0x00000001) ∧ (decode w = .ok .set ↔ w = 0x00000002) ∧
    (decode w = .ok .get ↔ w = 0x00000003) ∧ (decode w = .ok .matchPrefix ↔ w = 0x00000004) ∧
    (decode w = .ok .encode ↔ w = 0x00000005) ∧ (decode w = .ok .decode ↔ w = 0x00000006) ∧
    (decode w = .ok .clear ↔ w = 0x00000007)

/-- Decoding an encoded command gives it back. -/
def Obligations.DecodeOfEncode : Prop := ∀ i : Instr, decode (encode i) = .ok i

/-- A word decodes to a command only when it is that command's encoding, and is rejected exactly when its OPCODE is 0x00
or 0x08 to 0xFF or its bits [31:8] are not 0 (the encodings R83 calls illegal). -/
def Obligations.DecodesExactlyTheLegalWords : Prop :=
  ∀ w : Word,
    (∀ i, decode w = .ok i → w = encode i) ∧
    ((∃ e, decode w = .error e) ↔ (w.toNat % 256 = 0 ∨ 8 ≤ w.toNat % 256 ∨ w.toNat / 256 ≠ 0))

/-! ### Accept, engine step, completion -/

/-- When the pending word decodes to a command and it is the engine's turn, the step is that command's `exec`, in the
state whose input list has lost the turn; a turn leads the list, or the list is empty (log entry 2). -/
def Obligations.StepRunsDecodedCommand : Prop :=
  ∀ (s : State) (w : Word) (i : Instr), s.pending = some w → decode w = .ok i →
    (∀ rest, s.inputs = .engine :: rest → step s = exec i { s with inputs := rest }) ∧
    (s.inputs = [] → step s = exec i s)

/-- The state `withFetchWord` makes runs exactly the command of the word, as accepted by R190 (log entry 10). -/
def Obligations.FetchedWordRunsNext : Prop :=
  ∀ (s : State) (i : Instr),
    step (s.withFetchWord 32 (encode i).toNat) =
      exec i { s with pending := some (encode i), done := false, err := false, matched := false, dropped := false,
                      errCode := 0, outLen := 0, resSym := 0, rst := false }

/-- R190: a CMD write while BUSY = 0 is accepted, whatever its value. -/
def Obligations.CmdWriteAccepts : Prop :=
  ∀ (s : State) (w : Word) (rest : List Input), s.pending = none → s.rst = false →
    s.inputs = .host (.write 0x008 (.w32 w)) :: rest →
    step s = .next { s with pending := some w, done := false, err := false, matched := false, dropped := false,
                            errCode := 0, outLen := 0, resSym := 0, inputs := rest, response := some .done }

/-- While BUSY = 1 the engine's step always answers a next state, which is the completion record; a legal word runs its
command (R191); the error codes end at 9 (R84). That a turn with nothing pending answers the same state, the turn off the
list, is the model's choice, and so is an empty list counting as the engine's turn (log entry 2). -/
def Obligations.EngineStepCompletes : Prop :=
  ∀ s : State,
    (s.pending = none → ∀ rest, s.inputs = .engine :: rest → step s = .next { s with inputs := rest }) ∧
    (∀ w, s.pending = some w → s.EngineTurn →
      (∀ i, decode w = .ok i → step s = exec i { s with inputs := s.inputs.tail }) ∧
      ∃ t, step s = .next t ∧ t.busy = false ∧ t.done = true ∧ t.intPend = true ∧
        (t.err = true ↔ t.errCode ≠ 0) ∧ t.errCode.toNat ≤ 9)

/-- R83, R195: an illegal CMD word is accepted and completes with BadCommand and no other effect. -/
def Obligations.IllegalWordIsBadCommand : Prop :=
  ∀ (s : State) (w : Word) (rest : List Input),
    (w.toNat % 256 = 0 ∨ 8 ≤ w.toNat % 256 ∨ w.toNat / 256 ≠ 0) → s.pending = none → s.rst = false →
    s.inputs = .host (.write 0x008 (.w32 w)) :: .engine :: rest →
    ∃ a, step s = .next a ∧ a.busy = true ∧
      step a = .next { s with pending := none, done := true, intPend := true, errCode := 6, err := true,
                              matched := false, dropped := false, outLen := 0, resSym := 0,
                              inputs := rest, response := some .done }

/-- A command starts only by a CMD write while idle, and stops being pending only by the engine's turn or a reset
(R25, R191, R220). -/
def Obligations.OnlyCmdWritesStartCommands : Prop :=
  ∀ s t : State, step s = .next t →
    (s.busy = false → t.busy = true → ∃ w, s.Hosts (.write 0x008 (.w32 w)) ∧ t.pending = some w) ∧
    (s.busy = true → t.pending ≠ s.pending → s.EngineTurn ∨ s.Resets)

/-! ### Errors -/

/-- R194: which commands end with RangeError and which with Overlap, in unbounded arithmetic. -/
def Obligations.RangeAndOverlapChecks : Prop :=
  ∀ (i : Instr) (s : State), ∃ t, exec i s = .next t ∧
    (t.errCode = 7 ↔
      (i ≠ .clear ∧ ¬ InRange s.params s.srcAddr s.srcLen) ∨
      (i = .set ∧ ¬ InRange s.params s.valAddr s.valLen) ∨
      (i ∈ [Instr.get, .encode, .decode] ∧ ¬ InRange s.params s.dstAddr s.dstCap)) ∧
    (t.errCode = 8 ↔
      i ∈ [Instr.get, .encode, .decode] ∧ InRange s.params s.srcAddr s.srcLen ∧
        InRange s.params s.dstAddr s.dstCap ∧ Overlapping s.srcAddr s.srcLen s.dstAddr s.dstCap)

/-- The errors each command can end with (the table of R193; the order is in the statements per command). -/
def Obligations.CommandErrorSets : Prop :=
  ∀ (i : Instr) (s t : State), exec i s = .next t →
    t.errCode ∈ (match i with
      | .generate => [0, 7]
      | .set => [0, 7, 1, 2, 3]
      | .get => [0, 7, 8, 1, 4, 9]
      | .matchPrefix => [0, 7]
      | .encode => [0, 7, 8, 4, 9]
      | .decode => [0, 7, 8, 5, 9]
      | .clear => [0] : List Byte)

/-- R197: the state after a command that ended with an error, an illegal word's BadCommand included. The destination bytes
after a late error of ENCODE or DECODE are a free value each, the one `Config.freeByte` draws: nothing is said of what
it is. Whose turn it is stands in `inputs` (log entry 2). -/
def Obligations.ErrorLeavesState : Prop :=
  (∀ (s : State) (w : Word), s.pending = some w → (∀ i, decode w ≠ .ok i) → s.EngineTurn →
    step s = .next { s with pending := none, done := true, intPend := true, errCode := 6, err := true,
                            matched := false, outLen := 0, resSym := 0, inputs := s.inputs.tail }) ∧
  ∀ (i : Instr) (s t : State), exec i s = .next t → t.errCode ≠ 0 →
    ((i = .encode ∧ s.tblPresent = false ∧ t.errCode ∈ [(4 : Byte), 9] →
        t.tblPresent = true ∧ t.table = buildTable s.srcBytes) ∧
     (¬ (i = .encode ∧ s.tblPresent = false ∧ t.errCode ∈ [(4 : Byte), 9]) →
        t.tblPresent = s.tblPresent ∧ t.table = s.table)) ∧
    ((∀ a, ¬ s.InDst a → t.readByte a = s.readByte a) ∧
     (i ∈ [Instr.encode, .decode] ∧ t.errCode ∈ [(4 : Byte), 5, 9] →
        ∀ a, s.InDst a → t.readByte a = Config.freeByte s.draws a) ∧
     (¬ (i ∈ [Instr.encode, .decode] ∧ t.errCode ∈ [(4 : Byte), 5, 9]) → t.mem = s.mem)) ∧
    (t.srcAddr = s.srcAddr ∧ t.srcLen = s.srcLen ∧ t.dstAddr = s.dstAddr ∧ t.dstCap = s.dstCap ∧
      t.valAddr = s.valAddr ∧ t.valLen = s.valLen) ∧
    (t.outLen = 0 ∧ t.resSym = 0 ∧ t.matched = false) ∧
    (t.done = true ∧ t.err = true ∧ t.busy = false ∧ t.intPend = true ∧ t.dropped = s.dropped ∧ t.intEn = s.intEn)

/-! ### The tree builder and the code table -/

/-- A table built from a source has exactly the source's symbols, TBL_COUNT of them, is prefix-free and bookkept, and its
codes have 1 to 255 bits and fewer bits than there are symbols, unless there is one symbol (R107 without its last
sentence). -/
def Obligations.BuiltTableIsPrefixFree : Prop :=
  ∀ src : List Byte,
    (∀ y, (∃ c, (buildTable src).lookup y = some c) ↔ y ∈ src) ∧
    (buildTable src).count = src.toFinset.card ∧
    (buildTable src).PrefixFree ∧
    (buildTable src).Bookkept ∧
    (∀ y c, (buildTable src).lookup y = some c →
      1 ≤ c.length ∧ c.length ≤ 255 ∧ (c.length < (buildTable src).count ∨ (buildTable src).count = 1))

/-- "More frequent symbols get codes no longer than less frequent ones" (the last sentence of R107). -/
def Obligations.FrequentSymbolsGetShortCodes : Prop :=
  ∀ (src : List Byte) (a b : Symbol) (ca cb : Bits),
    (buildTable src).lookup a = some ca → (buildTable src).lookup b = some cb →
    src.count b < src.count a → ca.length ≤ cb.length

/-- R105: the merge by (weight, sequence number) makes the tree of the source's reference procedure. -/
def Obligations.MergeOrderIsTheReference : Prop :=
  ∀ src : List Byte, 2 ≤ (leafSymbols src).length →
    ((mergeLoop (leafSymbols src).length (leafSymbols src).length (initialQueue src)).map QNode.tree) =
      refMerge (leafSymbols src).length ((leafSymbols src).map (fun y => Tree.leaf y (src.count y))) ∧
    ∃ root, refMerge (leafSymbols src).length ((leafSymbols src).map (fun y => Tree.leaf y (src.count y))) = [root] ∧
      root.weight = src.length ∧ buildTable src = walk root [] emptyTable

/-- The code that the walk of a tree assigns to a symbol is the path from the root to its leaf, first bit the branch taken
at the root (R106). -/
def Obligations.WalkAssignsRootPaths : Prop :=
  ∀ (tree : Tree) (y : Symbol) (c : Bits), tree.symbols.Nodup →
    ((walk tree [] emptyTable).lookup y = some c ↔ PathTo tree c y)

/-- R108: a source of one distinct symbol gives that symbol the code "0" and no other symbol a code. -/
def Obligations.OnlySymbolGetsZero : Prop :=
  ∀ (src : List Byte) (y : Symbol), src ≠ [] → (∀ b ∈ src, b = y) →
    (∀ r, (buildTable src).lookup r = if r = y then some [false] else none) ∧
    (buildTable src).count = 1 ∧ (buildTable src).minLen = 1 ∧ (buildTable src).maxLen = 1

/-- Registering a code for a symbol without one adds that one entry and keeps the bookkeeping of R41, which the empty table
has (R100, R101). -/
def Obligations.RegisterKeepsBookkeeping : Prop :=
  emptyTable.Bookkept ∧
  ∀ (t : CodeTable) (y : Symbol) (c : Bits), t.Bookkept → t.lookup y = none →
    (∀ r, (t.register y c).lookup r = if r = y then some c else t.lookup r) ∧
    (t.register y c).count = t.count + 1 ∧ (t.register y c).Bookkept

/-- R110: GENERATE. -/
def Obligations.GenerateBuildsTable : Prop :=
  ∀ s : State,
    (InRange s.params s.srcAddr s.srcLen →
      exec .generate s = .next { s.completedOk with table := buildTable s.srcBytes, tblPresent := true, outLen := 0 }) ∧
    (¬ InRange s.params s.srcAddr s.srcLen →
      ∃ t, exec .generate s = .next t ∧ t.errCode = 7 ∧ t.table = s.table ∧ t.tblPresent = s.tblPresent ∧
        t.mem = s.mem)

/-- R109: GENERATE with SRC_LEN = 0, at any SRC_ADDR, leaves a present table without entries. -/
def Obligations.GenerateOfNothingIsEmpty : Prop :=
  ∀ s : State, s.srcLen = 0 →
    ∃ t, exec .generate s = .next t ∧ t.errCode = 0 ∧ t.tblPresent = true ∧
      (∀ y, t.table.lookup y = none) ∧ t.table.count = 0 ∧ t.table.minLen = 0 ∧ t.table.maxLen = 0

/-- SET of a legal value for a symbol without a code: the one entry added, the bookkeeping of R100, nothing else
changed (R120). -/
def Obligations.SetRegistersSymbol : Prop :=
  ∀ s : State, InRange s.params s.srcAddr s.srcLen → InRange s.params s.valAddr s.valLen → s.srcLen = 1 →
    s.table.lookup (s.readByte s.srcAddr.toNat) = none →
    1 ≤ s.valLen.toNat → s.valLen.toNat ≤ s.params.codeLenMax →
    (∀ i < s.valLen.toNat, s.readByte (s.valAddr.toNat + i) = 0x30 ∨ s.readByte (s.valAddr.toNat + i) = 0x31) →
    ∃ t code, exec .set s = .next t ∧ code.length = s.valLen.toNat ∧
      (∀ i < s.valLen.toNat, code[i]? = some (decide (s.readByte (s.valAddr.toNat + i) = 0x31))) ∧
      (∀ y, t.table.lookup y = if y = s.readByte s.srcAddr.toNat then some code else s.table.lookup y) ∧
      t.table.count = s.table.count + 1 ∧
      t.table.minLen = (if s.table.count = 0 then s.valLen.toNat else min s.table.minLen s.valLen.toNat) ∧
      t.table.maxLen = (if s.table.count = 0 then s.valLen.toNat else max s.table.maxLen s.valLen.toNat) ∧
      t = { s.completedOk with table := t.table, tblPresent := true, outLen := 0 }

/-- R121: which error SET ends with, checked in this order; an error leaves table and memory as they were. -/
def Obligations.SetErrorOrder : Prop :=
  ∀ s : State, ∃ t, exec .set s = .next t ∧
    t.errCode =
      (if ¬ InRange s.params s.srcAddr s.srcLen then 7
       else if ¬ InRange s.params s.valAddr s.valLen then 7
       else if s.srcLen ≠ 1 then 1
       else if s.table.lookup (s.readByte s.srcAddr.toNat) ≠ none then 2
       else if s.valLen = 0 ∨ s.params.codeLenMax < s.valLen.toNat then 3
       else if ∃ b ∈ s.valBytes, b ≠ 0x30 ∧ b ≠ 0x31 then 3
       else 0) ∧
    (t.errCode ≠ 0 → t.table = s.table ∧ t.tblPresent = s.tblPresent ∧ t.mem = s.mem)

/-- GET of a symbol with a code that fits: its code characters in the destination, every other byte and everything else
as before (R86, R125). -/
def Obligations.GetWritesCodeCharacters : Prop :=
  ∀ (s : State) (code : Bits), s.RangesPass → s.srcLen = 1 →
    s.table.lookup (s.readByte s.srcAddr.toNat) = some code → code.length ≤ s.dstCap.toNat →
    ∃ t, exec .get s = .next t ∧ t.outLen.toNat = code.length ∧
      (∀ i b, code[i]? = some b → t.readByte (s.dstAddr.toNat + i) = if b then 0x31 else 0x30) ∧
      (∀ a, ¬ (s.dstAddr.toNat ≤ a ∧ a < s.dstAddr.toNat + code.length) → t.readByte a = s.readByte a) ∧
      t = { s.completedOk with mem := t.mem, outLen := t.outLen }

/-- The order of GET's checks (R125, R196). On an absent table, in a state with the invariant, every GET that passes the
range, overlap and entry checks ends with UnknownSymbol, as on one without entries (R42). -/
def Obligations.GetErrorOrder : Prop :=
  ∀ s : State, ∃ t, exec .get s = .next t ∧
    t.errCode =
      (if ¬ InRange s.params s.srcAddr s.srcLen then 7
       else if ¬ InRange s.params s.dstAddr s.dstCap then 7
       else if Overlapping s.srcAddr s.srcLen s.dstAddr s.dstCap then 8
       else if s.srcLen ≠ 1 then 1
       else if s.table.lookup (s.readByte s.srcAddr.toNat) = none then 4
       else if s.dstCap.toNat < (s.table.codeOf (s.readByte s.srcAddr.toNat)).length then 9
       else 0) ∧
    (t.errCode ≠ 0 → t.mem = s.mem ∧ t.outLen = 0) ∧ t.table = s.table ∧ t.tblPresent = s.tblPresent ∧
    (Invariant s → s.tblPresent = false → s.RangesPass → s.srcLen = 1 → t.errCode = 4)

/-- R131, on a bookkept table, for the two forms the spec uses: `matchPrefix` answers the symbol of the shortest code that
is a prefix of the buffer, the least symbol among equal codes, and `none` exactly when no code is a prefix. -/
def Obligations.MatchIsShortestThenLeast : Prop :=
  ∀ t : CodeTable, t.Bookkept →
    (∀ (buf : List Byte),
      (∀ y n, t.matchPrefix chars buf = some (y, n) ↔
        ∃ c, t.lookup y = some c ∧ c.length = n ∧ c.map (fun b => if b then 0x31 else 0x30) <+: buf ∧
          ∀ y' c', t.lookup y' = some c' → c'.map (fun b => if b then 0x31 else 0x30) <+: buf →
            n < c'.length ∨ (n = c'.length ∧ y.toNat ≤ y'.toNat)) ∧
      (t.matchPrefix chars buf = none ↔
        ∀ y c, t.lookup y = some c → ¬ c.map (fun b => if b then (0x31 : Byte) else 0x30) <+: buf)) ∧
    (∀ (buf : Bits),
      (∀ y n, t.matchPrefix id buf = some (y, n) ↔
        ∃ c, t.lookup y = some c ∧ c.length = n ∧ c <+: buf ∧
          ∀ y' c', t.lookup y' = some c' → c' <+: buf → n < c'.length ∨ (n = c'.length ∧ y.toNat ≤ y'.toNat)) ∧
      (t.matchPrefix id buf = none ↔ ∀ y c, t.lookup y = some c → ¬ c <+: buf))

/-- R130: MATCH in range answers no error; on a match it reports the symbol and the consumed length and advances the
source range by it, without wrap; on no match it changes no operand, and on an absent table, in a state with the
invariant, there is no match (R42). Out of range it is RangeError. -/
def Obligations.MatchConsumesTheCode : Prop :=
  ∀ s : State, s.params.wf = true →
    (InRange s.params s.srcAddr s.srcLen →
      (∀ y n, s.table.matchPrefix chars s.srcBytes = some (y, n) →
        ∃ t, exec .matchPrefix s = .next t ∧ t.resSym = y ∧ t.outLen.toNat = n ∧ t.matched = true ∧
          t.srcAddr.toNat = s.srcAddr.toNat + n ∧ t.srcLen.toNat + n = s.srcLen.toNat ∧
          InRange s.params t.srcAddr t.srcLen ∧
          t = { s.completedOk with resSym := t.resSym, outLen := t.outLen, matched := true,
                                   srcAddr := t.srcAddr, srcLen := t.srcLen }) ∧
      (s.table.matchPrefix chars s.srcBytes = none →
        exec .matchPrefix s = .next { s.completedOk with outLen := 0, matched := false }) ∧
      (Invariant s → s.tblPresent = false →
        exec .matchPrefix s = .next { s.completedOk with outLen := 0, matched := false })) ∧
    (¬ InRange s.params s.srcAddr s.srcLen →
      ∃ t, exec .matchPrefix s = .next t ∧ t.errCode = 7 ∧ t.srcAddr = s.srcAddr ∧ t.srcLen = s.srcLen)

/-- R140: CLEAR, in every state. -/
def Obligations.ClearRemovesTable : Prop :=
  ∀ s : State, ∃ t, exec .clear s = .next t ∧ t.tblPresent = false ∧ (∀ y, t.table.lookup y = none) ∧
    t.table.count = 0 ∧ t.table.minLen = 0 ∧ t.table.maxLen = 0 ∧
    t = { s.completedOk with table := t.table, tblPresent := false, outLen := 0 }

/-! ### The codec -/

/-- ENCODE and DECODE of an empty source are the identity: no error, no output, no table built, whatever SRC_ADDR
(R170, R175). -/
def Obligations.EmptyInputIsIdentity : Prop :=
  ∀ s : State, s.srcLen = 0 → InRange s.params s.dstAddr s.dstCap →
    exec .encode s = .next { s.completedOk with outLen := 0 } ∧
    exec .decode s = .next { s.completedOk with outLen := 0 }

/-- R87, R160, R161, R162: with every source symbol coded and room for `ceil((B + 2) / 8)` bytes, ENCODE writes that many bytes, whose
bits, MSB first, are a 1, the codes in order, a 1, then zeros; every other byte and everything else is as before, but
for a table built when none was present. -/
def Obligations.EncodeWritesFramedStream : Prop :=
  ∀ s : State, s.RangesPass → s.srcLen ≠ 0 →
    (∀ b ∈ s.srcBytes, s.encodeTable.lookup b ≠ none) →
    ((s.encodeTable.codesOf s.srcBytes).length + 2 + 7) / 8 ≤ s.dstCap.toNat →
    ∃ t, exec .encode s = .next t ∧
      t.outLen.toNat = ((s.encodeTable.codesOf s.srcBytes).length + 2 + 7) / 8 ∧
      (∀ j, j < 8 * t.outLen.toNat →
        (t.readByte (s.dstAddr.toNat + j / 8)).getLsbD (7 - j % 8) =
          if j = 0 then true
          else if j ≤ (s.encodeTable.codesOf s.srcBytes).length then
            (s.encodeTable.codesOf s.srcBytes).getD (j - 1) false
          else decide (j = (s.encodeTable.codesOf s.srcBytes).length + 1)) ∧
      (∀ a, ¬ (s.dstAddr.toNat ≤ a ∧ a < s.dstAddr.toNat + t.outLen.toNat) → t.readByte a = s.readByte a) ∧
      t = { s.completedOk with table := s.encodeTable, tblPresent := true, mem := t.mem, outLen := t.outLen }

/-- The order of ENCODE's errors (R170, R196); an absent table is built unless an operand check fails or the source is
empty, and stays. -/
def Obligations.EncodeErrorOrder : Prop :=
  ∀ s : State, ∃ t, exec .encode s = .next t ∧
    t.errCode =
      (if ¬ InRange s.params s.srcAddr s.srcLen then 7
       else if ¬ InRange s.params s.dstAddr s.dstCap then 7
       else if Overlapping s.srcAddr s.srcLen s.dstAddr s.dstCap then 8
       else if s.srcLen = 0 then 0
       else if ∃ b ∈ s.srcBytes, s.encodeTable.lookup b = none then 4
       else if s.dstCap.toNat < ((s.encodeTable.codesOf s.srcBytes).length + 2 + 7) / 8 then 9
       else 0) ∧
    (s.RangesPass → s.srcLen ≠ 0 → t.table = s.encodeTable ∧ t.tblPresent = true)

/-- R164, for every non-empty raw input: `strip` answers a buffer exactly when the raw bits are up to seven 0s, a 1, the
buffer, a 1, up to seven 0s, and answers CorruptStream otherwise; stripping the stream of a bit string gives the bit
string back. -/
def Obligations.StripFindsTheSentinels : Prop :=
  (∀ raw : List Byte, raw ≠ [] →
    (∀ buf, strip raw = .ok buf ↔
      ∃ m k, m ≤ 7 ∧ k ≤ 7 ∧
        raw.flatMap (fun b => (List.range 8).map (fun i => b.getLsbD (7 - i))) =
          List.replicate m false ++ [true] ++ buf ++ [true] ++ List.replicate k false) ∧
    (∀ e, strip raw = .error e → e = .corruptStream)) ∧
  ∀ bits : Bits, strip (pack (frame bits)) = .ok bits

/-- R165, on every table: the decode loop answers `out` exactly when matches consume the whole buffer as `out` and `out`
fits, CapacityExceeded exactly when DST_CAP symbols are out and one more would match, CorruptStream exactly when what
is left is not empty and matches nothing. -/
def Obligations.DecodeLoopConsumesTheBuffer : Prop :=
  ∀ (t : CodeTable) (cap : Nat) (buf : Bits),
    (∀ out, decodeLoop t cap buf = .ok out ↔ Consumes t buf out [] ∧ out.length ≤ cap) ∧
    (decodeLoop t cap buf = .error .capacityExceeded ↔
      ∃ out rest, Consumes t buf out rest ∧ out.length = cap ∧ rest ≠ [] ∧ t.matchPrefix id rest ≠ none) ∧
    (decodeLoop t cap buf = .error .corruptStream ↔
      ∃ out rest, Consumes t buf out rest ∧ out.length ≤ cap ∧ rest ≠ [] ∧ t.matchPrefix id rest = none)

/-- DECODE on any table, prefix-free or not: what the matches consume is written, if it is the whole buffer and fits;
otherwise the error met first in stream order is reported (R165, R175). -/
def Obligations.DecodeOfAnyTable : Prop :=
  ∀ (s : State) (buf : Bits), s.RangesPass → s.srcLen ≠ 0 → strip s.srcBytes = .ok buf →
    (∀ out, Consumes s.table buf out [] → out.length ≤ s.dstCap.toNat →
      ∃ t, exec .decode s = .next t ∧ t.outLen.toNat = out.length ∧
        (∀ i y, out[i]? = some y → t.readByte (s.dstAddr.toNat + i) = y) ∧
        (∀ a, ¬ (s.dstAddr.toNat ≤ a ∧ a < s.dstAddr.toNat + out.length) → t.readByte a = s.readByte a) ∧
        t = { s.completedOk with mem := t.mem, outLen := t.outLen }) ∧
    (∀ out rest, Consumes s.table buf out rest → rest ≠ [] →
      (out.length = s.dstCap.toNat → s.table.matchPrefix id rest ≠ none →
        ∃ t, exec .decode s = .next t ∧ t.errCode = 9 ∧ t.outLen = 0) ∧
      (out.length ≤ s.dstCap.toNat → s.table.matchPrefix id rest = none →
        ∃ t, exec .decode s = .next t ∧ t.errCode = 5 ∧ t.outLen = 0))

/-- DECODE on a table that decodes: a raw input that is up to seven 0 bits, a sentinel, the codes of `syms`, a sentinel and
up to seven 0 bits is decoded to `syms`, if they fit; every other byte and everything else is as before (R163 to R165,
R175). -/
def Obligations.DecodeWritesSymbols : Prop :=
  ∀ (s : State) (syms : List Symbol) (m k : Nat), s.RangesPass → s.srcLen ≠ 0 → s.table.Decodes →
    (∀ y ∈ syms, s.table.lookup y ≠ none) → syms.length ≤ s.dstCap.toNat → m ≤ 7 → k ≤ 7 →
    s.srcBytes.flatMap (fun b => (List.range 8).map (fun i => b.getLsbD (7 - i))) =
      List.replicate m false ++ [true] ++ s.table.codesOf syms ++ [true] ++ List.replicate k false →
    ∃ t, exec .decode s = .next t ∧ t.outLen.toNat = syms.length ∧
      (∀ i y, syms[i]? = some y → t.readByte (s.dstAddr.toNat + i) = y) ∧
      (∀ a, ¬ (s.dstAddr.toNat ≤ a ∧ a < s.dstAddr.toNat + syms.length) → t.readByte a = s.readByte a) ∧
      t = { s.completedOk with mem := t.mem, outLen := t.outLen }

/-- DECODE's errors in order: the operand checks, then CorruptStream whenever `strip` fails, as it does when the first or
the last raw byte is zero and when a single raw byte has exactly one 1 bit; the table is never changed. On a table
without entries, and on an absent one in a state with the invariant, a stream with something between its sentinels is
CorruptStream and one with nothing there is decoded to nothing (R164, R175, R42). -/
def Obligations.DecodeErrorOrder : Prop :=
  ∀ s : State, ∃ t, exec .decode s = .next t ∧ t.table = s.table ∧ t.tblPresent = s.tblPresent ∧
    (¬ InRange s.params s.srcAddr s.srcLen ∨ ¬ InRange s.params s.dstAddr s.dstCap → t.errCode = 7) ∧
    (InRange s.params s.srcAddr s.srcLen → InRange s.params s.dstAddr s.dstCap →
      Overlapping s.srcAddr s.srcLen s.dstAddr s.dstCap → t.errCode = 8) ∧
    (s.RangesPass → s.srcLen ≠ 0 →
      (∀ e, strip s.srcBytes = .error e → t.errCode = 5 ∧ t.outLen = 0) ∧
      (s.srcBytes.head? = some 0 ∨ s.srcBytes.getLast? = some 0 → t.errCode = 5) ∧
      (∀ i < 8, s.srcBytes = [BitVec.ofNat 8 (2 ^ i)] → t.errCode = 5) ∧
      (s.table.count = 0 ∨ (Invariant s ∧ s.tblPresent = false) →
        ∀ buf, strip s.srcBytes = .ok buf → t.errCode = if buf = [] then 0 else 5))

/-- R180: on an absent table, or on the table built from the source, ENCODE of a non-empty source and then DECODE of its
output with the same table give the source back. -/
def Obligations.EncodeThenDecodeIsIdentity : Prop :=
  ∀ s : State, s.RangesPass → s.srcLen ≠ 0 → (s.tblPresent = false ∨ s.table = buildTable s.srcBytes) →
    (((buildTable s.srcBytes).codesOf s.srcBytes).length + 2 + 7) / 8 ≤ s.dstCap.toNat →
    ∃ t, exec .encode s = .next t ∧ t.errCode = 0 ∧
      ∀ u : State, u.RangesPass → u.table = t.table →
        u.srcBytes = t.memRead s.dstAddr.toNat t.outLen.toNat → s.srcLen.toNat ≤ u.dstCap.toNat →
        ∃ v, exec .decode u = .next v ∧ v.errCode = 0 ∧ v.outLen.toNat = s.srcLen.toNat ∧
          v.memRead u.dstAddr.toNat v.outLen.toNat = s.srcBytes

/-- R181: with one table built from `s1`, a source whose every symbol is in `s1` round-trips, and a source with another
symbol fails with UnknownSymbol and no output. -/
def Obligations.SharedTableRoundTrip : Prop :=
  ∀ (s1 : List Byte) (s : State), s.RangesPass → s.srcLen ≠ 0 → s.tblPresent = true → s.table = buildTable s1 →
    ((∀ b ∈ s.srcBytes, b ∈ s1) →
      ((s.table.codesOf s.srcBytes).length + 2 + 7) / 8 ≤ s.dstCap.toNat →
      ∃ t, exec .encode s = .next t ∧ t.errCode = 0 ∧
        ∀ u : State, u.RangesPass → u.table = t.table →
          u.srcBytes = t.memRead s.dstAddr.toNat t.outLen.toNat → s.srcLen.toNat ≤ u.dstCap.toNat →
          ∃ v, exec .decode u = .next v ∧ v.errCode = 0 ∧ v.outLen.toNat = s.srcLen.toNat ∧
            v.memRead u.dstAddr.toNat v.outLen.toNat = s.srcBytes) ∧
    ((∃ b ∈ s.srcBytes, b ∉ s1) →
      ∃ t, exec .encode s = .next t ∧ t.errCode = 4 ∧ t.outLen = 0 ∧ t.table = s.table)

/-! ### Frames of the engine -/

/-- R29: the engine never writes DMEM outside the destination range, only GET, ENCODE and DECODE write DMEM, and no
command writes DST_ADDR or DST_CAP, whose reset values are 0. -/
def Obligations.EngineWritesOnlyDestination : Prop :=
  (∀ (i : Instr) (s t : State), exec i s = .next t →
    (∀ a, ¬ s.InDst a → t.readByte a = s.readByte a) ∧
    (i ∉ [Instr.get, .encode, .decode] → ∀ a, t.readByte a = s.readByte a) ∧
    t.dstAddr = s.dstAddr ∧ t.dstCap = s.dstCap) ∧
  State.reset.dstAddr = 0 ∧ State.reset.dstCap = 0

/-- What no command changes: the parameters, VAL_ADDR, VAL_LEN, INT_EN, STATUS.DROPPED, the reset input, the coming inputs,
the last response; SRC_ADDR and SRC_LEN unless a MATCH found a symbol (R28, R30, R81). -/
def Obligations.EngineKeepsOtherRegisters : Prop :=
  ∀ (i : Instr) (s t : State), exec i s = .next t →
    t.params = s.params ∧ t.valAddr = s.valAddr ∧ t.valLen = s.valLen ∧ t.intEn = s.intEn ∧ t.dropped = s.dropped ∧
    t.rst = s.rst ∧ t.inputs = s.inputs ∧ t.response = s.response ∧ t.dmemDraw = s.dmemDraw ∧
    (¬ (i = .matchPrefix ∧ t.matched = true) → t.srcAddr = s.srcAddr ∧ t.srcLen = s.srcLen)

/-- OUT_LEN and RES_SYM after a command: OUT_LEN is 0 after GENERATE, SET, CLEAR and every error, at most DST_CAP after GET,
ENCODE and DECODE, at most SRC_LEN after MATCH; a RES_SYM that was 0, as an accept leaves it, changes only by a MATCH
that found a symbol (R31, R32). -/
def Obligations.ResultRegistersAfterCommand : Prop :=
  ∀ (i : Instr) (s t : State), exec i s = .next t →
    (t.errCode ≠ 0 ∨ i ∈ [Instr.generate, .set, .clear] → t.outLen = 0) ∧
    (i ∈ [Instr.get, .encode, .decode] → t.outLen.toNat ≤ s.dstCap.toNat) ∧
    (i = .matchPrefix → t.outLen.toNat ≤ s.srcLen.toNat) ∧
    (s.resSym = 0 → t.resSym ≠ 0 → i = .matchPrefix ∧ t.matched = true)

/-! ### The machine as a whole -/

/-- Which steps change TBL_PRESENT or the table: it becomes present only by GENERATE, SET or ENCODE, absent only by CLEAR
or a reset, and no other event changes an entry (R40, R42). -/
def Obligations.OnlyTableCommandsChangeTable : Prop :=
  ∀ s t : State, step s = .next t →
    (s.tblPresent = false → t.tblPresent = true → s.Runs .generate ∨ s.Runs .set ∨ s.Runs .encode) ∧
    (s.tblPresent = true → t.tblPresent = false → s.Runs .clear ∨ s.Resets) ∧
    (t.table ≠ s.table →
      s.Runs .generate ∨ s.Runs .set ∨ (s.Runs .encode ∧ s.tblPresent = false) ∨ s.Runs .clear ∨ s.Resets)

/-- Which steps change an operand register: a host write to it while BUSY = 0, a reset, and for SRC_ADDR and SRC_LEN a MATCH
that found a symbol (R28, R29, R30, R37). -/
def Obligations.OnlyHostAndMatchChangeOperands : Prop :=
  ∀ s t : State, step s = .next t →
    (t.srcAddr ≠ s.srcAddr →
      (∃ v, s.Hosts (.write 0x014 (.w32 v)) ∧ s.busy = false ∧ t.srcAddr = v) ∨ s.Resets ∨
        (s.Runs .matchPrefix ∧ t.matched = true)) ∧
    (t.srcLen ≠ s.srcLen →
      (∃ v, s.Hosts (.write 0x018 (.w32 v)) ∧ s.busy = false ∧ t.srcLen = v) ∨ s.Resets ∨
        (s.Runs .matchPrefix ∧ t.matched = true)) ∧
    (t.dstAddr ≠ s.dstAddr → (∃ v, s.Hosts (.write 0x01C (.w32 v)) ∧ s.busy = false ∧ t.dstAddr = v) ∨ s.Resets) ∧
    (t.dstCap ≠ s.dstCap → (∃ v, s.Hosts (.write 0x020 (.w32 v)) ∧ s.busy = false ∧ t.dstCap = v) ∨ s.Resets) ∧
    (t.valAddr ≠ s.valAddr → (∃ v, s.Hosts (.write 0x024 (.w32 v)) ∧ s.busy = false ∧ t.valAddr = v) ∨ s.Resets) ∧
    (t.valLen ≠ s.valLen → (∃ v, s.Hosts (.write 0x028 (.w32 v)) ∧ s.busy = false ∧ t.valLen = v) ∨ s.Resets)

/-- A DMEM byte changes only by a reset, by a host write that covers it while BUSY = 0, or by GET, ENCODE or DECODE with it
in the destination range (R60, R68, R221, R226). -/
def Obligations.DmemByteIsStable : Prop :=
  ∀ (s t : State) (a : Nat), step s = .next t → t.readByte a ≠ s.readByte a →
    s.Resets ∨
    (∃ off d, s.Hosts (.write off d) ∧ s.busy = false ∧
      off.toNat ≤ 0x01000000 + a ∧ 0x01000000 + a < off.toNat + sizeBytes (datumSize d)) ∨
    ((s.Runs .get ∨ s.Runs .encode ∨ s.Runs .decode) ∧ s.InDst a)

/-- The invariant holds after reset. -/
def Obligations.ResetHasInvariant : Prop := Invariant State.reset

/-- Every step keeps the invariant, from every state that has it. -/
def Obligations.StepKeepsInvariant : Prop :=
  ∀ s t : State, Invariant s → step s = .next t → Invariant t

/-! ### Reset -/

/-- R220: the reset state is taken at power-on and whenever `rst` is asserted, whatever was going on; while `rst` is
asserted CORE stays in it, and when `rst` is released CORE is idle in it. `irq` is 0. The coming inputs and the
parameters, which are no state of CORE, go on. -/
def Obligations.ResetTakesTheResetState : Prop :=
  State.reset.AtReset ∧ State.reset.irq = false ∧
  ∀ (s : State) (rest : List Input),
    (s.inputs = .rstAssert :: rest →
      ∃ t, step s = .next t ∧ t.AtReset ∧ t.irq = false ∧ t.rst = true ∧ t.inputs = rest ∧ t.params = s.params) ∧
    (s.rst = true → s.AtReset →
      (∀ t, step s = .next t → t.AtReset ∧ t.irq = false) ∧
      (s.inputs = .rstRelease :: rest →
        ∃ t, step s = .next t ∧ t.AtReset ∧ t.busy = false ∧ t.irq = false ∧ t.rst = false ∧ t.inputs = rest))

/-- After `rst` is asserted every DMEM byte holds the free value of one draw, a draw not used before in a state with the
invariant (R221, log entry 6). -/
def Obligations.ResetLeavesDmemUnspecified : Prop :=
  (∀ a, State.reset.readByte a = Config.freeByte 0 a) ∧
  ∀ (s : State), s.Resets → ∃ t, step s = .next t ∧ (∀ a, t.readByte a = Config.freeByte s.draws a) ∧ s.draws < t.draws

/-- R223: a host transaction while `rst` is asserted has no step; the model stops with a fault of its own (the name is the
model's, log entry 9). -/
def Obligations.HostUnderResetHasNoStep : Prop :=
  ∀ (s : State) (t : Txn), s.rst = true → s.Hosts t → step s = .fault .hostDuringReset

/-! ### The host port -/

/-- R24: ID and CFG read their constants, busy or not, and no step changes the parameters. -/
def Obligations.IdAndCfgAreConstant : Prop :=
  (∀ (s : State) (rest : List Input), s.rst = false →
    (s.inputs = .host (.read 0x000 .b4) :: rest →
      step s = .next { s with inputs := rest, response := some (.data (.w32 0x48434331)) }) ∧
    (s.inputs = .host (.read 0x004 .b4) :: rest → s.params.wf = true →
      ∃ c : Word, step s = .next { s with inputs := rest, response := some (.data (.w32 c)) } ∧
        c.toNat % 32 = s.params.dmemLog2 ∧ c.toNat / 32 % 65536 = s.params.codeLenMax ∧ c.toNat / 2 ^ 21 = 0)) ∧
  cfgWord Config.reference = 0x00002010 ∧
  (∀ s t : State, step s = .next t → t.params = s.params)

/-- A STATUS read while BUSY = 0 returns each field at its bit and zero above bit 5 (R26). -/
def Obligations.StatusReadsItsFields : Prop :=
  ∀ (s : State) (rest : List Input), s.rst = false → s.pending = none →
    s.inputs = .host (.read 0x00C .b4) :: rest →
    ∃ w : Word, step s = .next { s with inputs := rest, response := some (.data (.w32 w)) } ∧
      w.getLsbD 0 = false ∧ w.getLsbD 1 = s.done ∧ w.getLsbD 2 = s.err ∧ w.getLsbD 3 = s.matched ∧
      w.getLsbD 4 = s.tblPresent ∧ w.getLsbD 5 = s.dropped ∧ w.toNat < 64

/-- Reads of the result and interrupt registers while BUSY = 0 return their values, reserved bits zero (R27, R31 to
R35). TBL_COUNT, MIN_LEN and MAX_LEN read modulo 2^32 in every state, which is the model's reading (log entry 12); in a
state with the invariant TBL_COUNT reads exactly the number of symbols with a code, MIN_LEN and MAX_LEN exactly the
table's two lengths. -/
def Obligations.ResultRegistersRead : Prop :=
  ∀ (s : State) (rest : List Input) (off : Word), s.rst = false → s.pending = none →
    s.inputs = .host (.read off .b4) :: rest →
    ∀ n, ((off, n) ∈ [((0x010 : Word), s.errCode.toNat), (0x02C, s.outLen.toNat), (0x030, s.resSym.toNat),
        (0x034, s.table.count % 2 ^ 32), (0x038, s.table.minLen % 2 ^ 32), (0x03C, s.table.maxLen % 2 ^ 32),
        (0x040, s.intEn.toNat), (0x044, s.intPend.toNat)] ∨
      (Invariant s ∧ (off, n) ∈ [((0x034 : Word), (allSymbols.filter (fun y => (s.table.lookup y).isSome)).length),
        (0x038, s.table.minLen), (0x03C, s.table.maxLen)])) →
      ∃ w : Word, step s = .next { s with inputs := rest, response := some (.data (.w32 w)) } ∧ w.toNat = n

/-- R37: while BUSY = 0 a write to an operand register takes effect at once and the next read returns the value; while
BUSY = 1 it is ignored. A read returns the register's value, whoever wrote it last, and changes nothing else (R23, R64). -/
def Obligations.OperandRegistersReadBack : Prop :=
  (∀ (s : State) (off v : Word) (rest : List Input), s.rst = false → off ∈ operandOffsets →
    s.inputs = .host (.write off (.w32 v)) :: .host (.read off .b4) :: rest →
    ∃ t, step s = .next t ∧ t.response = some .done ∧
      (s.busy = false → ∃ u, step t = .next u ∧ u.response = some (.data (.w32 v))) ∧
      (s.busy = true → t = { s with inputs := t.inputs, response := some .done }) ∧
      t = { s with inputs := .host (.read off .b4) :: rest, response := some .done,
                   srcAddr := t.srcAddr, srcLen := t.srcLen, dstAddr := t.dstAddr, dstCap := t.dstCap,
                   valAddr := t.valAddr, valLen := t.valLen }) ∧
  (∀ (s : State) (off v : Word) (rest : List Input), s.rst = false →
    s.inputs = .host (.read off .b4) :: rest →
    (off, v) ∈ [((0x014 : Word), s.srcAddr), (0x018, s.srcLen), (0x01C, s.dstAddr), (0x020, s.dstCap),
        (0x024, s.valAddr), (0x028, s.valLen)] →
    step s = .next { s with inputs := rest, response := some (.data (.w32 v)) })

/-- A reserved offset reads 0 and ignores writes, and neither is an error (R36); CMD reads 0 (R25); a write to a read-only
register is ignored without an error (R23). Busy or not. -/
def Obligations.ReservedOffsetsReadZero : Prop :=
  ∀ (s : State) (off v : Word) (rest : List Input), s.rst = false →
    (0x048 ≤ off.toNat → off.toNat ≤ 0x0FC → off.toNat % 4 = 0 →
      (s.inputs = .host (.read off .b4) :: rest →
        step s = .next { s with inputs := rest, response := some (.data (.w32 0)) }) ∧
      (s.inputs = .host (.write off (.w32 v)) :: rest →
        step s = .next { s with inputs := rest, response := some .done })) ∧
    (s.inputs = .host (.read 0x008 .b4) :: rest →
      step s = .next { s with inputs := rest, response := some (.data (.w32 0)) }) ∧
    (off ∈ [(0x000 : Word), 0x004, 0x00C, 0x010, 0x02C, 0x030, 0x034, 0x038, 0x03C] →
      s.inputs = .host (.write off (.w32 v)) :: rest →
      step s = .next { s with inputs := rest, response := some .done })

/-- A register-window access of another size or alignment gets an error response and no effect (R65), and so does every
access that R62 leaves unmapped or R66 calls misaligned, while every other access gets an ok response. That the
error response comes while BUSY = 1 too is the model's reading (log entry 15). -/
def Obligations.BadAccessHasNoEffect : Prop :=
  ∀ (s : State) (off : Word) (size : Size) (d : Datum) (rest : List Input), s.rst = false →
    (s.inputs = .host (.read off size) :: rest →
      (BadAccess s.params off size → step s = .next { s with inputs := rest, response := some .error }) ∧
      (¬ BadAccess s.params off size → ∃ t v, step s = .next t ∧ t.response = some (.data v) ∧ datumSize v = size)) ∧
    (s.inputs = .host (.write off d) :: rest →
      (BadAccess s.params off (datumSize d) → step s = .next { s with inputs := rest, response := some .error }) ∧
      (¬ BadAccess s.params off (datumSize d) → ∃ t, step s = .next t ∧ t.response = some .done))

/-- R66: an aligned DMEM access while BUSY = 0 is little-endian, stores exactly its bytes, and does not cross the end of
DMEM; a misaligned one gets an error response and has no effect. -/
def Obligations.DmemIsLittleEndian : Prop :=
  ∀ (s : State) (p : Nat) (off : Word) (size : Size) (d : Datum) (rest : List Input),
    s.rst = false → s.busy = false → s.params.wf = true → off.toNat = 0x01000000 + p → p < 2 ^ s.params.dmemLog2 →
    (s.inputs = .host (.read off size) :: rest → off.toNat % sizeBytes size ≠ 0 →
      step s = .next { s with inputs := rest, response := some .error }) ∧
    (s.inputs = .host (.write off d) :: rest → off.toNat % sizeBytes (datumSize d) ≠ 0 →
      step s = .next { s with inputs := rest, response := some .error }) ∧
    (s.inputs = .host (.read off size) :: rest → off.toNat % sizeBytes size = 0 →
      p + sizeBytes size ≤ 2 ^ s.params.dmemLog2 ∧
      ∃ v, step s = .next { s with inputs := rest, response := some (.data v) } ∧ datumSize v = size ∧
        datumNat v = ((List.range (sizeBytes size)).map (fun i => (s.readByte (p + i)).toNat * 2 ^ (8 * i))).sum) ∧
    (s.inputs = .host (.write off d) :: rest → off.toNat % sizeBytes (datumSize d) = 0 →
      p + sizeBytes (datumSize d) ≤ 2 ^ s.params.dmemLog2 ∧
      ∃ t, step s = .next t ∧ t.response = some .done ∧
        (∀ i < sizeBytes (datumSize d), (t.readByte (p + i)).toNat = datumNat d / 2 ^ (8 * i) % 256) ∧
        (∀ a, ¬ (p ≤ a ∧ a < p + sizeBytes (datumSize d)) → t.readByte a = s.readByte a) ∧
        t = { s with mem := t.mem, inputs := rest, response := some .done })

/-- R226: writes while BUSY = 1. -/
def Obligations.WritesWhileBusy : Prop :=
  ∀ (s : State) (off v : Word) (d : Datum) (rest : List Input), s.rst = false → s.busy = true →
    (s.inputs = .host (.write off (.w32 v)) :: rest →
      (off = 0x008 → step s = .next { s with dropped := true, inputs := rest, response := some .done }) ∧
      (off = 0x040 → step s = .next { s with intEn := v.getLsbD 0, inputs := rest, response := some .done }) ∧
      (off = 0x044 →
        step s = .next { s with intPend := s.intPend && !v.getLsbD 0, inputs := rest, response := some .done }) ∧
      (off.toNat < 0x100 → off.toNat % 4 = 0 → off ∉ [(0x008 : Word), 0x040, 0x044] →
        step s = .next { s with inputs := rest, response := some .done })) ∧
    (s.inputs = .host (.write off d) :: rest → 0x100 ≤ off.toNat → ¬ BadAccess s.params off (datumSize d) →
      step s = .next { s with inputs := rest, response := some .done })

/-- R227: reads while BUSY = 1. The values the spec leaves open are free draws of the right size, of which nothing is
said (log entry 8); a read changes nothing of CORE's state, only the response and the model's draw counter. -/
def Obligations.ReadsWhileBusy : Prop :=
  ∀ (s : State) (off : Word) (size : Size) (rest : List Input), s.rst = false → s.busy = true →
    s.inputs = .host (.read off size) :: rest →
    (∃ t, step s = .next t ∧ t = { s with inputs := rest, response := t.response, draws := t.draws } ∧
      (off = 0x00C → size = .b4 → ∃ w : Word, t.response = some (.data (.w32 w)) ∧ w.getLsbD 0 = true ∧
        w.getLsbD 1 = false ∧ w.getLsbD 2 = false ∧ w.getLsbD 3 = false ∧ w.getLsbD 5 = s.dropped ∧ w.toNat < 64) ∧
      (off ∈ [(0x010 : Word), 0x02C, 0x030, 0x034, 0x038, 0x03C] → size = .b4 →
        t.response = some (.data (.w32 (Config.freeWord s.draws))) ∧ s.draws < t.draws) ∧
      (0x100 ≤ off.toNat → ¬ BadAccess s.params off size →
        ∃ v, t.response = some (.data v) ∧ datumSize v = size ∧
          datumNat v = (Config.freeWord s.draws).toNat % 2 ^ (8 * sizeBytes size) ∧ s.draws < t.draws)) ∧
    (0x048 ≤ off.toNat → off.toNat < 0x100 → off.toNat % 4 = 0 → size = .b4 →
      step s = .next { s with inputs := rest, response := some (.data (.w32 0)) }) ∧
    (∀ v, (off, v) ∈ [((0x000 : Word), (0x48434331 : Word)), (0x004, cfgWord s.params), (0x008, 0),
        (0x014, s.srcAddr), (0x018, s.srcLen), (0x01C, s.dstAddr), (0x020, s.dstCap), (0x024, s.valAddr),
        (0x028, s.valLen), (0x040, if s.intEn then 1 else 0), (0x044, if s.intPend then 1 else 0)] → size = .b4 →
      step s = .next { s with inputs := rest, response := some (.data (.w32 v)) })

/-- R35, R200: the interrupt. Every completion sets INT_PEND.DONE; a host write to INT_PEND clears it exactly when its bit
[0] is 1; INT_EN takes bit [0] of a write; `irq` is the level INT_PEND.DONE AND INT_EN.DONE_IE. Busy or not. -/
def Obligations.InterruptPendsAndClears : Prop :=
  (∀ s : State, s.irq = true ↔ s.intPend = true ∧ s.intEn = true) ∧
  (∀ s t : State, s.pending.isSome → s.EngineTurn → step s = .next t → t.intPend = true ∧ t.intEn = s.intEn) ∧
  (∀ (s : State) (v : Word) (rest : List Input), s.rst = false →
    (s.inputs = .host (.write 0x044 (.w32 v)) :: rest →
      step s = .next { s with intPend := if v.toNat % 2 = 1 then false else s.intPend, inputs := rest,
                              response := some .done }) ∧
    (s.inputs = .host (.write 0x040 (.w32 v)) :: rest →
      step s = .next { s with intEn := decide (v.toNat % 2 = 1), inputs := rest, response := some .done })) ∧
  State.reset.intEn = false ∧ State.reset.intPend = false

/-! ### The release of `rst` -/

/-- Releasing `rst` changes nothing but its level, from any state, also one with `rst` low or with a command pending: the
model's choice (log entry 9), of which R220 gives only the release of a CORE in its reset state. -/
def Obligations.ReleaseChangesOnlyTheLevel : Prop :=
  ∀ (s : State) (rest : List Input), s.inputs = .rstRelease :: rest →
    step s = .next { s with rst := false, inputs := rest }
end

