-- ==== Sys2Proof/Laws/Memory.lean ====
section
/-! SUPPORT. The laws of DMEM: read after write, every other location unchanged, the canonical form kept. -/

namespace Sys2Proof.Machine

@[simp] theorem find_nil (a : Nat) : Memory.find [] a = none := rfl

theorem find_write (m : Memory) (a b : Nat) (v : Byte) :
    Memory.find (Memory.write m a v) b = if b = a then some v else Memory.find m b := by
  induction m with
  | nil => rfl
  | cons c rest ih =>
    obtain ⟨x, w⟩ := c
    unfold Memory.write
    split
    · simp [Memory.find]
    · split
      · subst a
        simp only [Memory.find]
        split <;> rfl
      · simp only [Memory.find, ih]
        split <;> split <;> first | rfl | omega

theorem find_write_self (m : Memory) (a : Nat) (v : Byte) : Memory.find (Memory.write m a v) a = some v := by
  simp [find_write]

theorem find_write_other (m : Memory) {a b : Nat} (v : Byte) (h : b ≠ a) :
    Memory.find (Memory.write m a v) b = Memory.find m b := by
  simp [find_write, h]

/-- What a location holds after a byte string is written: its byte, or what it held before. -/
theorem find_writeBytes (bs : List Byte) (m : Memory) (a b : Nat) :
    Memory.find (Memory.writeBytes m a bs) b =
      if a ≤ b ∧ b < a + bs.length then bs[b - a]? else Memory.find m b := by
  induction bs generalizing m a with
  | nil => rw [if_neg (by simp)]; rfl
  | cons v rest ih =>
    rw [Memory.writeBytes, ih, find_write]
    rcases Nat.lt_trichotomy b a with h | rfl | h
    · rw [if_neg (by omega), if_neg (by omega), if_neg (by omega)]
    · rw [if_neg (by omega), if_pos rfl, if_pos (by simp), Nat.sub_self, List.getElem?_cons_zero]
    · by_cases h2 : b < a + (rest.length + 1)
      · have h3 : b - a = (b - (a + 1)) + 1 := by omega
        rw [if_pos (by omega), if_pos (by simp; omega), h3, List.getElem?_cons_succ]
      · rw [if_neg (by omega), if_neg (by omega), if_neg (by simp; omega)]

theorem find_writeBytes_outside (bs : List Byte) (m : Memory) {a b : Nat} (h : b < a ∨ a + bs.length ≤ b) :
    Memory.find (Memory.writeBytes m a bs) b = Memory.find m b := by
  rw [find_writeBytes, if_neg (by omega)]

theorem wf_nil (p : Params) : Memory.wf p [] = true := rfl

/-- The canonical form of a list with a first cell. -/
theorem wf_cons (p : Params) (a : Nat) (v : Byte) (rest : Memory) :
    Memory.wf p ((a, v) :: rest) = true ↔
      a < dmemSize p ∧ (∀ c ∈ rest, a < c.1) ∧ Memory.wf p rest = true := by
  simp [Memory.wf, and_assoc]

theorem mem_write {m : Memory} {a : Nat} {v : Byte} {c : Host.Cell} (h : c ∈ Memory.write m a v) :
    c = (a, v) ∨ c ∈ m := by
  induction m with
  | nil => simpa [Memory.write] using h
  | cons d rest ih =>
    obtain ⟨x, w⟩ := d
    unfold Memory.write at h
    split at h
    · simpa using h
    · split at h
      · rcases List.mem_cons.1 h with h | h
        · exact .inl h
        · exact .inr (by simp [h])
      · rcases List.mem_cons.1 h with h | h
        · exact .inr (by simp [h])
        · rcases ih h with h | h
          · exact .inl h
          · exact .inr (by simp [h])

/-- A write inside DMEM keeps the canonical form. -/
theorem wf_write {p : Params} {m : Memory} {a : Nat} (v : Byte) (hm : Memory.wf p m = true) (ha : a < dmemSize p) :
    Memory.wf p (Memory.write m a v) = true := by
  induction m with
  | nil => simp [Memory.write, Memory.wf, ha]
  | cons d rest ih =>
    obtain ⟨x, w⟩ := d
    obtain ⟨hx, hlt, hr⟩ := (wf_cons p x w rest).1 hm
    unfold Memory.write
    split
    · rename_i h
      refine (wf_cons ..).2 ⟨ha, ?_, hm⟩
      intro c hc
      rcases List.mem_cons.1 hc with rfl | hc
      · exact h
      · exact Nat.lt_trans h (hlt c hc)
    · split
      · rename_i h
        subst h
        exact (wf_cons ..).2 ⟨ha, hlt, hr⟩
      · rename_i h1 h2
        refine (wf_cons ..).2 ⟨hx, ?_, ih hr⟩
        intro c hc
        rcases mem_write hc with rfl | hc
        · show x < a
          omega
        · exact hlt c hc

/-- A byte string written inside DMEM keeps the canonical form. -/
theorem wf_writeBytes {p : Params} (bs : List Byte) {m : Memory} {a : Nat} (hm : Memory.wf p m = true)
    (ha : bs = [] ∨ a + bs.length ≤ dmemSize p) : Memory.wf p (Memory.writeBytes m a bs) = true := by
  induction bs generalizing m a with
  | nil => exact hm
  | cons v rest ih =>
    have h : a + (rest.length + 1) ≤ dmemSize p := by simpa using ha
    refine ih (wf_write v hm (by omega)) ?_
    exact .inr (by omega)

/-- Reading a byte after a byte string is written. -/
theorem readByte_writeBytes (s : State) (bs : List Byte) (a b : Nat) :
    State.readByte { s with mem := Memory.writeBytes s.mem a bs } b =
      if a ≤ b ∧ b < a + bs.length then bs.getD (b - a) 0 else s.readByte b := by
  unfold State.readByte
  rw [find_writeBytes]
  split
  · rename_i h
    have h2 : b - a < bs.length := by omega
    simp [h2]
  · rfl

@[simp] theorem memRead_length (s : State) (a n : Nat) : (s.memRead a n).length = n := by simp [State.memRead]

@[simp] theorem memRead_getElem (s : State) (a n i : Nat) (h : i < (s.memRead a n).length) :
    (s.memRead a n)[i] = s.readByte (a + i) := by simp [State.memRead]

/-- Two states whose bytes agree on a range read the same string there. -/
theorem memRead_congr {s t : State} {a n : Nat} (h : ∀ i, i < n → s.readByte (a + i) = t.readByte (a + i)) :
    s.memRead a n = t.memRead a n := by
  unfold State.memRead
  exact List.map_congr_left fun i hi => h i (List.mem_range.1 hi)

end Sys2Proof.Machine
end

