-- ==== Sys2Proof/Laws/State.lean ====
section
/-! SUPPORT. One lemma per field per update of the state, each true by `rfl`, so that no proof unfolds a record update. -/

namespace Sys2Proof.Machine

variable (s : State)

/-! Accept (R190) -/
@[simp] theorem accept_params (w : Word) : (s.accept w).params = s.params := rfl
@[simp] theorem accept_srcAddr (w : Word) : (s.accept w).srcAddr = s.srcAddr := rfl
@[simp] theorem accept_srcLen (w : Word) : (s.accept w).srcLen = s.srcLen := rfl
@[simp] theorem accept_dstAddr (w : Word) : (s.accept w).dstAddr = s.dstAddr := rfl
@[simp] theorem accept_dstCap (w : Word) : (s.accept w).dstCap = s.dstCap := rfl
@[simp] theorem accept_valAddr (w : Word) : (s.accept w).valAddr = s.valAddr := rfl
@[simp] theorem accept_valLen (w : Word) : (s.accept w).valLen = s.valLen := rfl
@[simp] theorem accept_outLen (w : Word) : (s.accept w).outLen = 0 := rfl
@[simp] theorem accept_resSym (w : Word) : (s.accept w).resSym = 0 := rfl
@[simp] theorem accept_errCode (w : Word) : (s.accept w).errCode = 0 := rfl
@[simp] theorem accept_done (w : Word) : (s.accept w).done = false := rfl
@[simp] theorem accept_err (w : Word) : (s.accept w).err = false := rfl
@[simp] theorem accept_matched (w : Word) : (s.accept w).matched = false := rfl
@[simp] theorem accept_dropped (w : Word) : (s.accept w).dropped = false := rfl
@[simp] theorem accept_intEn (w : Word) : (s.accept w).intEn = s.intEn := rfl
@[simp] theorem accept_intPend (w : Word) : (s.accept w).intPend = s.intPend := rfl
@[simp] theorem accept_table (w : Word) : (s.accept w).table = s.table := rfl
@[simp] theorem accept_tblPresent (w : Word) : (s.accept w).tblPresent = s.tblPresent := rfl
@[simp] theorem accept_mem (w : Word) : (s.accept w).mem = s.mem := rfl
@[simp] theorem accept_pending (w : Word) : (s.accept w).pending = some w := rfl
@[simp] theorem accept_rst (w : Word) : (s.accept w).rst = s.rst := rfl
@[simp] theorem accept_inputs (w : Word) : (s.accept w).inputs = s.inputs := rfl
@[simp] theorem accept_response (w : Word) : (s.accept w).response = s.response := rfl
@[simp] theorem accept_draws (w : Word) : (s.accept w).draws = s.draws := rfl
@[simp] theorem accept_dmemDraw (w : Word) : (s.accept w).dmemDraw = s.dmemDraw := rfl

/-! Completion (R191) -/
@[simp] theorem complete_params (e : Option CmdError) : (s.complete e).params = s.params := rfl
@[simp] theorem complete_srcAddr (e : Option CmdError) : (s.complete e).srcAddr = s.srcAddr := rfl
@[simp] theorem complete_srcLen (e : Option CmdError) : (s.complete e).srcLen = s.srcLen := rfl
@[simp] theorem complete_dstAddr (e : Option CmdError) : (s.complete e).dstAddr = s.dstAddr := rfl
@[simp] theorem complete_dstCap (e : Option CmdError) : (s.complete e).dstCap = s.dstCap := rfl
@[simp] theorem complete_valAddr (e : Option CmdError) : (s.complete e).valAddr = s.valAddr := rfl
@[simp] theorem complete_valLen (e : Option CmdError) : (s.complete e).valLen = s.valLen := rfl
@[simp] theorem complete_outLen (e : Option CmdError) : (s.complete e).outLen = s.outLen := rfl
@[simp] theorem complete_resSym (e : Option CmdError) : (s.complete e).resSym = s.resSym := rfl
@[simp] theorem complete_errCode (e : Option CmdError) : (s.complete e).errCode = (e.map errorCode).getD 0 := rfl
@[simp] theorem complete_done (e : Option CmdError) : (s.complete e).done = true := rfl
@[simp] theorem complete_err (e : Option CmdError) : (s.complete e).err = ((e.map errorCode).getD 0 != 0) := rfl
@[simp] theorem complete_matched (e : Option CmdError) : (s.complete e).matched = s.matched := rfl
@[simp] theorem complete_dropped (e : Option CmdError) : (s.complete e).dropped = s.dropped := rfl
@[simp] theorem complete_intEn (e : Option CmdError) : (s.complete e).intEn = s.intEn := rfl
@[simp] theorem complete_intPend (e : Option CmdError) : (s.complete e).intPend = true := rfl
@[simp] theorem complete_table (e : Option CmdError) : (s.complete e).table = s.table := rfl
@[simp] theorem complete_tblPresent (e : Option CmdError) : (s.complete e).tblPresent = s.tblPresent := rfl
@[simp] theorem complete_mem (e : Option CmdError) : (s.complete e).mem = s.mem := rfl
@[simp] theorem complete_pending (e : Option CmdError) : (s.complete e).pending = none := rfl
@[simp] theorem complete_rst (e : Option CmdError) : (s.complete e).rst = s.rst := rfl
@[simp] theorem complete_inputs (e : Option CmdError) : (s.complete e).inputs = s.inputs := rfl
@[simp] theorem complete_response (e : Option CmdError) : (s.complete e).response = s.response := rfl
@[simp] theorem complete_draws (e : Option CmdError) : (s.complete e).draws = s.draws := rfl
@[simp] theorem complete_dmemDraw (e : Option CmdError) : (s.complete e).dmemDraw = s.dmemDraw := rfl

/-! The result registers after an error (R197 d) -/
@[simp] theorem clearResults_params : (s.clearResults).params = s.params := rfl
@[simp] theorem clearResults_srcAddr : (s.clearResults).srcAddr = s.srcAddr := rfl
@[simp] theorem clearResults_srcLen : (s.clearResults).srcLen = s.srcLen := rfl
@[simp] theorem clearResults_dstAddr : (s.clearResults).dstAddr = s.dstAddr := rfl
@[simp] theorem clearResults_dstCap : (s.clearResults).dstCap = s.dstCap := rfl
@[simp] theorem clearResults_valAddr : (s.clearResults).valAddr = s.valAddr := rfl
@[simp] theorem clearResults_valLen : (s.clearResults).valLen = s.valLen := rfl
@[simp] theorem clearResults_outLen : (s.clearResults).outLen = 0 := rfl
@[simp] theorem clearResults_resSym : (s.clearResults).resSym = 0 := rfl
@[simp] theorem clearResults_errCode : (s.clearResults).errCode = s.errCode := rfl
@[simp] theorem clearResults_done : (s.clearResults).done = s.done := rfl
@[simp] theorem clearResults_err : (s.clearResults).err = s.err := rfl
@[simp] theorem clearResults_matched : (s.clearResults).matched = false := rfl
@[simp] theorem clearResults_dropped : (s.clearResults).dropped = s.dropped := rfl
@[simp] theorem clearResults_intEn : (s.clearResults).intEn = s.intEn := rfl
@[simp] theorem clearResults_intPend : (s.clearResults).intPend = s.intPend := rfl
@[simp] theorem clearResults_table : (s.clearResults).table = s.table := rfl
@[simp] theorem clearResults_tblPresent : (s.clearResults).tblPresent = s.tblPresent := rfl
@[simp] theorem clearResults_mem : (s.clearResults).mem = s.mem := rfl
@[simp] theorem clearResults_pending : (s.clearResults).pending = s.pending := rfl
@[simp] theorem clearResults_rst : (s.clearResults).rst = s.rst := rfl
@[simp] theorem clearResults_inputs : (s.clearResults).inputs = s.inputs := rfl
@[simp] theorem clearResults_response : (s.clearResults).response = s.response := rfl
@[simp] theorem clearResults_draws : (s.clearResults).draws = s.draws := rfl
@[simp] theorem clearResults_dmemDraw : (s.clearResults).dmemDraw = s.dmemDraw := rfl

/-! OUT_LEN (R31) -/
@[simp] theorem setOutLen_params (n : Nat) : (s.setOutLen n).params = s.params := rfl
@[simp] theorem setOutLen_srcAddr (n : Nat) : (s.setOutLen n).srcAddr = s.srcAddr := rfl
@[simp] theorem setOutLen_srcLen (n : Nat) : (s.setOutLen n).srcLen = s.srcLen := rfl
@[simp] theorem setOutLen_dstAddr (n : Nat) : (s.setOutLen n).dstAddr = s.dstAddr := rfl
@[simp] theorem setOutLen_dstCap (n : Nat) : (s.setOutLen n).dstCap = s.dstCap := rfl
@[simp] theorem setOutLen_valAddr (n : Nat) : (s.setOutLen n).valAddr = s.valAddr := rfl
@[simp] theorem setOutLen_valLen (n : Nat) : (s.setOutLen n).valLen = s.valLen := rfl
@[simp] theorem setOutLen_outLen (n : Nat) : (s.setOutLen n).outLen = BitVec.ofNat 32 n := rfl
@[simp] theorem setOutLen_resSym (n : Nat) : (s.setOutLen n).resSym = s.resSym := rfl
@[simp] theorem setOutLen_errCode (n : Nat) : (s.setOutLen n).errCode = s.errCode := rfl
@[simp] theorem setOutLen_done (n : Nat) : (s.setOutLen n).done = s.done := rfl
@[simp] theorem setOutLen_err (n : Nat) : (s.setOutLen n).err = s.err := rfl
@[simp] theorem setOutLen_matched (n : Nat) : (s.setOutLen n).matched = s.matched := rfl
@[simp] theorem setOutLen_dropped (n : Nat) : (s.setOutLen n).dropped = s.dropped := rfl
@[simp] theorem setOutLen_intEn (n : Nat) : (s.setOutLen n).intEn = s.intEn := rfl
@[simp] theorem setOutLen_intPend (n : Nat) : (s.setOutLen n).intPend = s.intPend := rfl
@[simp] theorem setOutLen_table (n : Nat) : (s.setOutLen n).table = s.table := rfl
@[simp] theorem setOutLen_tblPresent (n : Nat) : (s.setOutLen n).tblPresent = s.tblPresent := rfl
@[simp] theorem setOutLen_mem (n : Nat) : (s.setOutLen n).mem = s.mem := rfl
@[simp] theorem setOutLen_pending (n : Nat) : (s.setOutLen n).pending = s.pending := rfl
@[simp] theorem setOutLen_rst (n : Nat) : (s.setOutLen n).rst = s.rst := rfl
@[simp] theorem setOutLen_inputs (n : Nat) : (s.setOutLen n).inputs = s.inputs := rfl
@[simp] theorem setOutLen_response (n : Nat) : (s.setOutLen n).response = s.response := rfl
@[simp] theorem setOutLen_draws (n : Nat) : (s.setOutLen n).draws = s.draws := rfl
@[simp] theorem setOutLen_dmemDraw (n : Nat) : (s.setOutLen n).dmemDraw = s.dmemDraw := rfl

/-! The table and TBL_PRESENT (R42) -/
@[simp] theorem setTable_params (t : CodeTable) (p : Bool) : (s.setTable t p).params = s.params := rfl
@[simp] theorem setTable_srcAddr (t : CodeTable) (p : Bool) : (s.setTable t p).srcAddr = s.srcAddr := rfl
@[simp] theorem setTable_srcLen (t : CodeTable) (p : Bool) : (s.setTable t p).srcLen = s.srcLen := rfl
@[simp] theorem setTable_dstAddr (t : CodeTable) (p : Bool) : (s.setTable t p).dstAddr = s.dstAddr := rfl
@[simp] theorem setTable_dstCap (t : CodeTable) (p : Bool) : (s.setTable t p).dstCap = s.dstCap := rfl
@[simp] theorem setTable_valAddr (t : CodeTable) (p : Bool) : (s.setTable t p).valAddr = s.valAddr := rfl
@[simp] theorem setTable_valLen (t : CodeTable) (p : Bool) : (s.setTable t p).valLen = s.valLen := rfl
@[simp] theorem setTable_outLen (t : CodeTable) (p : Bool) : (s.setTable t p).outLen = s.outLen := rfl
@[simp] theorem setTable_resSym (t : CodeTable) (p : Bool) : (s.setTable t p).resSym = s.resSym := rfl
@[simp] theorem setTable_errCode (t : CodeTable) (p : Bool) : (s.setTable t p).errCode = s.errCode := rfl
@[simp] theorem setTable_done (t : CodeTable) (p : Bool) : (s.setTable t p).done = s.done := rfl
@[simp] theorem setTable_err (t : CodeTable) (p : Bool) : (s.setTable t p).err = s.err := rfl
@[simp] theorem setTable_matched (t : CodeTable) (p : Bool) : (s.setTable t p).matched = s.matched := rfl
@[simp] theorem setTable_dropped (t : CodeTable) (p : Bool) : (s.setTable t p).dropped = s.dropped := rfl
@[simp] theorem setTable_intEn (t : CodeTable) (p : Bool) : (s.setTable t p).intEn = s.intEn := rfl
@[simp] theorem setTable_intPend (t : CodeTable) (p : Bool) : (s.setTable t p).intPend = s.intPend := rfl
@[simp] theorem setTable_table (t : CodeTable) (p : Bool) : (s.setTable t p).table = t := rfl
@[simp] theorem setTable_tblPresent (t : CodeTable) (p : Bool) : (s.setTable t p).tblPresent = p := rfl
@[simp] theorem setTable_mem (t : CodeTable) (p : Bool) : (s.setTable t p).mem = s.mem := rfl
@[simp] theorem setTable_pending (t : CodeTable) (p : Bool) : (s.setTable t p).pending = s.pending := rfl
@[simp] theorem setTable_rst (t : CodeTable) (p : Bool) : (s.setTable t p).rst = s.rst := rfl
@[simp] theorem setTable_inputs (t : CodeTable) (p : Bool) : (s.setTable t p).inputs = s.inputs := rfl
@[simp] theorem setTable_response (t : CodeTable) (p : Bool) : (s.setTable t p).response = s.response := rfl
@[simp] theorem setTable_draws (t : CodeTable) (p : Bool) : (s.setTable t p).draws = s.draws := rfl
@[simp] theorem setTable_dmemDraw (t : CodeTable) (p : Bool) : (s.setTable t p).dmemDraw = s.dmemDraw := rfl

/-! A MATCH that found a symbol (R130) -/
@[simp] theorem setMatch_params (y : Symbol) (n : Nat) : (s.setMatch y n).params = s.params := rfl
@[simp] theorem setMatch_srcAddr (y : Symbol) (n : Nat) : (s.setMatch y n).srcAddr = s.srcAddr + BitVec.ofNat 32 n := rfl
@[simp] theorem setMatch_srcLen (y : Symbol) (n : Nat) : (s.setMatch y n).srcLen = s.srcLen - BitVec.ofNat 32 n := rfl
@[simp] theorem setMatch_dstAddr (y : Symbol) (n : Nat) : (s.setMatch y n).dstAddr = s.dstAddr := rfl
@[simp] theorem setMatch_dstCap (y : Symbol) (n : Nat) : (s.setMatch y n).dstCap = s.dstCap := rfl
@[simp] theorem setMatch_valAddr (y : Symbol) (n : Nat) : (s.setMatch y n).valAddr = s.valAddr := rfl
@[simp] theorem setMatch_valLen (y : Symbol) (n : Nat) : (s.setMatch y n).valLen = s.valLen := rfl
@[simp] theorem setMatch_outLen (y : Symbol) (n : Nat) : (s.setMatch y n).outLen = s.outLen := rfl
@[simp] theorem setMatch_resSym (y : Symbol) (n : Nat) : (s.setMatch y n).resSym = y := rfl
@[simp] theorem setMatch_errCode (y : Symbol) (n : Nat) : (s.setMatch y n).errCode = s.errCode := rfl
@[simp] theorem setMatch_done (y : Symbol) (n : Nat) : (s.setMatch y n).done = s.done := rfl
@[simp] theorem setMatch_err (y : Symbol) (n : Nat) : (s.setMatch y n).err = s.err := rfl
@[simp] theorem setMatch_matched (y : Symbol) (n : Nat) : (s.setMatch y n).matched = true := rfl
@[simp] theorem setMatch_dropped (y : Symbol) (n : Nat) : (s.setMatch y n).dropped = s.dropped := rfl
@[simp] theorem setMatch_intEn (y : Symbol) (n : Nat) : (s.setMatch y n).intEn = s.intEn := rfl
@[simp] theorem setMatch_intPend (y : Symbol) (n : Nat) : (s.setMatch y n).intPend = s.intPend := rfl
@[simp] theorem setMatch_table (y : Symbol) (n : Nat) : (s.setMatch y n).table = s.table := rfl
@[simp] theorem setMatch_tblPresent (y : Symbol) (n : Nat) : (s.setMatch y n).tblPresent = s.tblPresent := rfl
@[simp] theorem setMatch_mem (y : Symbol) (n : Nat) : (s.setMatch y n).mem = s.mem := rfl
@[simp] theorem setMatch_pending (y : Symbol) (n : Nat) : (s.setMatch y n).pending = s.pending := rfl
@[simp] theorem setMatch_rst (y : Symbol) (n : Nat) : (s.setMatch y n).rst = s.rst := rfl
@[simp] theorem setMatch_inputs (y : Symbol) (n : Nat) : (s.setMatch y n).inputs = s.inputs := rfl
@[simp] theorem setMatch_response (y : Symbol) (n : Nat) : (s.setMatch y n).response = s.response := rfl
@[simp] theorem setMatch_draws (y : Symbol) (n : Nat) : (s.setMatch y n).draws = s.draws := rfl
@[simp] theorem setMatch_dmemDraw (y : Symbol) (n : Nat) : (s.setMatch y n).dmemDraw = s.dmemDraw := rfl

/-! A MATCH that found none (R130) -/
@[simp] theorem setNoMatch_params : (s.setNoMatch).params = s.params := rfl
@[simp] theorem setNoMatch_srcAddr : (s.setNoMatch).srcAddr = s.srcAddr := rfl
@[simp] theorem setNoMatch_srcLen : (s.setNoMatch).srcLen = s.srcLen := rfl
@[simp] theorem setNoMatch_dstAddr : (s.setNoMatch).dstAddr = s.dstAddr := rfl
@[simp] theorem setNoMatch_dstCap : (s.setNoMatch).dstCap = s.dstCap := rfl
@[simp] theorem setNoMatch_valAddr : (s.setNoMatch).valAddr = s.valAddr := rfl
@[simp] theorem setNoMatch_valLen : (s.setNoMatch).valLen = s.valLen := rfl
@[simp] theorem setNoMatch_outLen : (s.setNoMatch).outLen = s.outLen := rfl
@[simp] theorem setNoMatch_resSym : (s.setNoMatch).resSym = s.resSym := rfl
@[simp] theorem setNoMatch_errCode : (s.setNoMatch).errCode = s.errCode := rfl
@[simp] theorem setNoMatch_done : (s.setNoMatch).done = s.done := rfl
@[simp] theorem setNoMatch_err : (s.setNoMatch).err = s.err := rfl
@[simp] theorem setNoMatch_matched : (s.setNoMatch).matched = false := rfl
@[simp] theorem setNoMatch_dropped : (s.setNoMatch).dropped = s.dropped := rfl
@[simp] theorem setNoMatch_intEn : (s.setNoMatch).intEn = s.intEn := rfl
@[simp] theorem setNoMatch_intPend : (s.setNoMatch).intPend = s.intPend := rfl
@[simp] theorem setNoMatch_table : (s.setNoMatch).table = s.table := rfl
@[simp] theorem setNoMatch_tblPresent : (s.setNoMatch).tblPresent = s.tblPresent := rfl
@[simp] theorem setNoMatch_mem : (s.setNoMatch).mem = s.mem := rfl
@[simp] theorem setNoMatch_pending : (s.setNoMatch).pending = s.pending := rfl
@[simp] theorem setNoMatch_rst : (s.setNoMatch).rst = s.rst := rfl
@[simp] theorem setNoMatch_inputs : (s.setNoMatch).inputs = s.inputs := rfl
@[simp] theorem setNoMatch_response : (s.setNoMatch).response = s.response := rfl
@[simp] theorem setNoMatch_draws : (s.setNoMatch).draws = s.draws := rfl
@[simp] theorem setNoMatch_dmemDraw : (s.setNoMatch).dmemDraw = s.dmemDraw := rfl

/-! DMEM -/
@[simp] theorem setMem_params (m : Memory) : (s.setMem m).params = s.params := rfl
@[simp] theorem setMem_srcAddr (m : Memory) : (s.setMem m).srcAddr = s.srcAddr := rfl
@[simp] theorem setMem_srcLen (m : Memory) : (s.setMem m).srcLen = s.srcLen := rfl
@[simp] theorem setMem_dstAddr (m : Memory) : (s.setMem m).dstAddr = s.dstAddr := rfl
@[simp] theorem setMem_dstCap (m : Memory) : (s.setMem m).dstCap = s.dstCap := rfl
@[simp] theorem setMem_valAddr (m : Memory) : (s.setMem m).valAddr = s.valAddr := rfl
@[simp] theorem setMem_valLen (m : Memory) : (s.setMem m).valLen = s.valLen := rfl
@[simp] theorem setMem_outLen (m : Memory) : (s.setMem m).outLen = s.outLen := rfl
@[simp] theorem setMem_resSym (m : Memory) : (s.setMem m).resSym = s.resSym := rfl
@[simp] theorem setMem_errCode (m : Memory) : (s.setMem m).errCode = s.errCode := rfl
@[simp] theorem setMem_done (m : Memory) : (s.setMem m).done = s.done := rfl
@[simp] theorem setMem_err (m : Memory) : (s.setMem m).err = s.err := rfl
@[simp] theorem setMem_matched (m : Memory) : (s.setMem m).matched = s.matched := rfl
@[simp] theorem setMem_dropped (m : Memory) : (s.setMem m).dropped = s.dropped := rfl
@[simp] theorem setMem_intEn (m : Memory) : (s.setMem m).intEn = s.intEn := rfl
@[simp] theorem setMem_intPend (m : Memory) : (s.setMem m).intPend = s.intPend := rfl
@[simp] theorem setMem_table (m : Memory) : (s.setMem m).table = s.table := rfl
@[simp] theorem setMem_tblPresent (m : Memory) : (s.setMem m).tblPresent = s.tblPresent := rfl
@[simp] theorem setMem_mem (m : Memory) : (s.setMem m).mem = m := rfl
@[simp] theorem setMem_pending (m : Memory) : (s.setMem m).pending = s.pending := rfl
@[simp] theorem setMem_rst (m : Memory) : (s.setMem m).rst = s.rst := rfl
@[simp] theorem setMem_inputs (m : Memory) : (s.setMem m).inputs = s.inputs := rfl
@[simp] theorem setMem_response (m : Memory) : (s.setMem m).response = s.response := rfl
@[simp] theorem setMem_draws (m : Memory) : (s.setMem m).draws = s.draws := rfl
@[simp] theorem setMem_dmemDraw (m : Memory) : (s.setMem m).dmemDraw = s.dmemDraw := rfl

/-! The draw counter -/
@[simp] theorem nextDraw_params : (s.nextDraw).params = s.params := rfl
@[simp] theorem nextDraw_srcAddr : (s.nextDraw).srcAddr = s.srcAddr := rfl
@[simp] theorem nextDraw_srcLen : (s.nextDraw).srcLen = s.srcLen := rfl
@[simp] theorem nextDraw_dstAddr : (s.nextDraw).dstAddr = s.dstAddr := rfl
@[simp] theorem nextDraw_dstCap : (s.nextDraw).dstCap = s.dstCap := rfl
@[simp] theorem nextDraw_valAddr : (s.nextDraw).valAddr = s.valAddr := rfl
@[simp] theorem nextDraw_valLen : (s.nextDraw).valLen = s.valLen := rfl
@[simp] theorem nextDraw_outLen : (s.nextDraw).outLen = s.outLen := rfl
@[simp] theorem nextDraw_resSym : (s.nextDraw).resSym = s.resSym := rfl
@[simp] theorem nextDraw_errCode : (s.nextDraw).errCode = s.errCode := rfl
@[simp] theorem nextDraw_done : (s.nextDraw).done = s.done := rfl
@[simp] theorem nextDraw_err : (s.nextDraw).err = s.err := rfl
@[simp] theorem nextDraw_matched : (s.nextDraw).matched = s.matched := rfl
@[simp] theorem nextDraw_dropped : (s.nextDraw).dropped = s.dropped := rfl
@[simp] theorem nextDraw_intEn : (s.nextDraw).intEn = s.intEn := rfl
@[simp] theorem nextDraw_intPend : (s.nextDraw).intPend = s.intPend := rfl
@[simp] theorem nextDraw_table : (s.nextDraw).table = s.table := rfl
@[simp] theorem nextDraw_tblPresent : (s.nextDraw).tblPresent = s.tblPresent := rfl
@[simp] theorem nextDraw_mem : (s.nextDraw).mem = s.mem := rfl
@[simp] theorem nextDraw_pending : (s.nextDraw).pending = s.pending := rfl
@[simp] theorem nextDraw_rst : (s.nextDraw).rst = s.rst := rfl
@[simp] theorem nextDraw_inputs : (s.nextDraw).inputs = s.inputs := rfl
@[simp] theorem nextDraw_response : (s.nextDraw).response = s.response := rfl
@[simp] theorem nextDraw_draws : (s.nextDraw).draws = s.draws + 1 := rfl
@[simp] theorem nextDraw_dmemDraw : (s.nextDraw).dmemDraw = s.dmemDraw := rfl

/-! The response (R63) -/
@[simp] theorem respond_params (r : Response) : (s.respond r).params = s.params := rfl
@[simp] theorem respond_srcAddr (r : Response) : (s.respond r).srcAddr = s.srcAddr := rfl
@[simp] theorem respond_srcLen (r : Response) : (s.respond r).srcLen = s.srcLen := rfl
@[simp] theorem respond_dstAddr (r : Response) : (s.respond r).dstAddr = s.dstAddr := rfl
@[simp] theorem respond_dstCap (r : Response) : (s.respond r).dstCap = s.dstCap := rfl
@[simp] theorem respond_valAddr (r : Response) : (s.respond r).valAddr = s.valAddr := rfl
@[simp] theorem respond_valLen (r : Response) : (s.respond r).valLen = s.valLen := rfl
@[simp] theorem respond_outLen (r : Response) : (s.respond r).outLen = s.outLen := rfl
@[simp] theorem respond_resSym (r : Response) : (s.respond r).resSym = s.resSym := rfl
@[simp] theorem respond_errCode (r : Response) : (s.respond r).errCode = s.errCode := rfl
@[simp] theorem respond_done (r : Response) : (s.respond r).done = s.done := rfl
@[simp] theorem respond_err (r : Response) : (s.respond r).err = s.err := rfl
@[simp] theorem respond_matched (r : Response) : (s.respond r).matched = s.matched := rfl
@[simp] theorem respond_dropped (r : Response) : (s.respond r).dropped = s.dropped := rfl
@[simp] theorem respond_intEn (r : Response) : (s.respond r).intEn = s.intEn := rfl
@[simp] theorem respond_intPend (r : Response) : (s.respond r).intPend = s.intPend := rfl
@[simp] theorem respond_table (r : Response) : (s.respond r).table = s.table := rfl
@[simp] theorem respond_tblPresent (r : Response) : (s.respond r).tblPresent = s.tblPresent := rfl
@[simp] theorem respond_mem (r : Response) : (s.respond r).mem = s.mem := rfl
@[simp] theorem respond_pending (r : Response) : (s.respond r).pending = s.pending := rfl
@[simp] theorem respond_rst (r : Response) : (s.respond r).rst = s.rst := rfl
@[simp] theorem respond_inputs (r : Response) : (s.respond r).inputs = s.inputs := rfl
@[simp] theorem respond_response (r : Response) : (s.respond r).response = some r := rfl
@[simp] theorem respond_draws (r : Response) : (s.respond r).draws = s.draws := rfl
@[simp] theorem respond_dmemDraw (r : Response) : (s.respond r).dmemDraw = s.dmemDraw := rfl

/-! The coming inputs -/
@[simp] theorem setInputs_params (l : List Input) : (s.setInputs l).params = s.params := rfl
@[simp] theorem setInputs_srcAddr (l : List Input) : (s.setInputs l).srcAddr = s.srcAddr := rfl
@[simp] theorem setInputs_srcLen (l : List Input) : (s.setInputs l).srcLen = s.srcLen := rfl
@[simp] theorem setInputs_dstAddr (l : List Input) : (s.setInputs l).dstAddr = s.dstAddr := rfl
@[simp] theorem setInputs_dstCap (l : List Input) : (s.setInputs l).dstCap = s.dstCap := rfl
@[simp] theorem setInputs_valAddr (l : List Input) : (s.setInputs l).valAddr = s.valAddr := rfl
@[simp] theorem setInputs_valLen (l : List Input) : (s.setInputs l).valLen = s.valLen := rfl
@[simp] theorem setInputs_outLen (l : List Input) : (s.setInputs l).outLen = s.outLen := rfl
@[simp] theorem setInputs_resSym (l : List Input) : (s.setInputs l).resSym = s.resSym := rfl
@[simp] theorem setInputs_errCode (l : List Input) : (s.setInputs l).errCode = s.errCode := rfl
@[simp] theorem setInputs_done (l : List Input) : (s.setInputs l).done = s.done := rfl
@[simp] theorem setInputs_err (l : List Input) : (s.setInputs l).err = s.err := rfl
@[simp] theorem setInputs_matched (l : List Input) : (s.setInputs l).matched = s.matched := rfl
@[simp] theorem setInputs_dropped (l : List Input) : (s.setInputs l).dropped = s.dropped := rfl
@[simp] theorem setInputs_intEn (l : List Input) : (s.setInputs l).intEn = s.intEn := rfl
@[simp] theorem setInputs_intPend (l : List Input) : (s.setInputs l).intPend = s.intPend := rfl
@[simp] theorem setInputs_table (l : List Input) : (s.setInputs l).table = s.table := rfl
@[simp] theorem setInputs_tblPresent (l : List Input) : (s.setInputs l).tblPresent = s.tblPresent := rfl
@[simp] theorem setInputs_mem (l : List Input) : (s.setInputs l).mem = s.mem := rfl
@[simp] theorem setInputs_pending (l : List Input) : (s.setInputs l).pending = s.pending := rfl
@[simp] theorem setInputs_rst (l : List Input) : (s.setInputs l).rst = s.rst := rfl
@[simp] theorem setInputs_inputs (l : List Input) : (s.setInputs l).inputs = l := rfl
@[simp] theorem setInputs_response (l : List Input) : (s.setInputs l).response = s.response := rfl
@[simp] theorem setInputs_draws (l : List Input) : (s.setInputs l).draws = s.draws := rfl
@[simp] theorem setInputs_dmemDraw (l : List Input) : (s.setInputs l).dmemDraw = s.dmemDraw := rfl

/-! `rst` released (R220) -/
@[simp] theorem releaseReset_params : (s.releaseReset).params = s.params := rfl
@[simp] theorem releaseReset_srcAddr : (s.releaseReset).srcAddr = s.srcAddr := rfl
@[simp] theorem releaseReset_srcLen : (s.releaseReset).srcLen = s.srcLen := rfl
@[simp] theorem releaseReset_dstAddr : (s.releaseReset).dstAddr = s.dstAddr := rfl
@[simp] theorem releaseReset_dstCap : (s.releaseReset).dstCap = s.dstCap := rfl
@[simp] theorem releaseReset_valAddr : (s.releaseReset).valAddr = s.valAddr := rfl
@[simp] theorem releaseReset_valLen : (s.releaseReset).valLen = s.valLen := rfl
@[simp] theorem releaseReset_outLen : (s.releaseReset).outLen = s.outLen := rfl
@[simp] theorem releaseReset_resSym : (s.releaseReset).resSym = s.resSym := rfl
@[simp] theorem releaseReset_errCode : (s.releaseReset).errCode = s.errCode := rfl
@[simp] theorem releaseReset_done : (s.releaseReset).done = s.done := rfl
@[simp] theorem releaseReset_err : (s.releaseReset).err = s.err := rfl
@[simp] theorem releaseReset_matched : (s.releaseReset).matched = s.matched := rfl
@[simp] theorem releaseReset_dropped : (s.releaseReset).dropped = s.dropped := rfl
@[simp] theorem releaseReset_intEn : (s.releaseReset).intEn = s.intEn := rfl
@[simp] theorem releaseReset_intPend : (s.releaseReset).intPend = s.intPend := rfl
@[simp] theorem releaseReset_table : (s.releaseReset).table = s.table := rfl
@[simp] theorem releaseReset_tblPresent : (s.releaseReset).tblPresent = s.tblPresent := rfl
@[simp] theorem releaseReset_mem : (s.releaseReset).mem = s.mem := rfl
@[simp] theorem releaseReset_pending : (s.releaseReset).pending = s.pending := rfl
@[simp] theorem releaseReset_rst : (s.releaseReset).rst = false := rfl
@[simp] theorem releaseReset_inputs : (s.releaseReset).inputs = s.inputs := rfl
@[simp] theorem releaseReset_response : (s.releaseReset).response = s.response := rfl
@[simp] theorem releaseReset_draws : (s.releaseReset).draws = s.draws := rfl
@[simp] theorem releaseReset_dmemDraw : (s.releaseReset).dmemDraw = s.dmemDraw := rfl

/-! `rst` asserted (R220, R221) -/
@[simp] theorem assertReset_params : (s.assertReset).params = s.params := rfl
@[simp] theorem assertReset_srcAddr : (s.assertReset).srcAddr = 0 := rfl
@[simp] theorem assertReset_srcLen : (s.assertReset).srcLen = 0 := rfl
@[simp] theorem assertReset_dstAddr : (s.assertReset).dstAddr = 0 := rfl
@[simp] theorem assertReset_dstCap : (s.assertReset).dstCap = 0 := rfl
@[simp] theorem assertReset_valAddr : (s.assertReset).valAddr = 0 := rfl
@[simp] theorem assertReset_valLen : (s.assertReset).valLen = 0 := rfl
@[simp] theorem assertReset_outLen : (s.assertReset).outLen = 0 := rfl
@[simp] theorem assertReset_resSym : (s.assertReset).resSym = 0 := rfl
@[simp] theorem assertReset_errCode : (s.assertReset).errCode = 0 := rfl
@[simp] theorem assertReset_done : (s.assertReset).done = false := rfl
@[simp] theorem assertReset_err : (s.assertReset).err = false := rfl
@[simp] theorem assertReset_matched : (s.assertReset).matched = false := rfl
@[simp] theorem assertReset_dropped : (s.assertReset).dropped = false := rfl
@[simp] theorem assertReset_intEn : (s.assertReset).intEn = false := rfl
@[simp] theorem assertReset_intPend : (s.assertReset).intPend = false := rfl
@[simp] theorem assertReset_table : (s.assertReset).table = emptyTable := rfl
@[simp] theorem assertReset_tblPresent : (s.assertReset).tblPresent = false := rfl
@[simp] theorem assertReset_mem : (s.assertReset).mem = [] := rfl
@[simp] theorem assertReset_pending : (s.assertReset).pending = none := rfl
@[simp] theorem assertReset_rst : (s.assertReset).rst = true := rfl
@[simp] theorem assertReset_inputs : (s.assertReset).inputs = s.inputs := rfl
@[simp] theorem assertReset_response : (s.assertReset).response = none := rfl
@[simp] theorem assertReset_draws : (s.assertReset).draws = s.draws + 1 := rfl
@[simp] theorem assertReset_dmemDraw : (s.assertReset).dmemDraw = s.draws := rfl

/-! The destination after a late error (R197 b): DMEM and the draw counter change. -/
@[simp] theorem scrambleDst_params : s.scrambleDst.params = s.params := rfl
@[simp] theorem scrambleDst_srcAddr : s.scrambleDst.srcAddr = s.srcAddr := rfl
@[simp] theorem scrambleDst_srcLen : s.scrambleDst.srcLen = s.srcLen := rfl
@[simp] theorem scrambleDst_dstAddr : s.scrambleDst.dstAddr = s.dstAddr := rfl
@[simp] theorem scrambleDst_dstCap : s.scrambleDst.dstCap = s.dstCap := rfl
@[simp] theorem scrambleDst_valAddr : s.scrambleDst.valAddr = s.valAddr := rfl
@[simp] theorem scrambleDst_valLen : s.scrambleDst.valLen = s.valLen := rfl
@[simp] theorem scrambleDst_outLen : s.scrambleDst.outLen = s.outLen := rfl
@[simp] theorem scrambleDst_resSym : s.scrambleDst.resSym = s.resSym := rfl
@[simp] theorem scrambleDst_errCode : s.scrambleDst.errCode = s.errCode := rfl
@[simp] theorem scrambleDst_done : s.scrambleDst.done = s.done := rfl
@[simp] theorem scrambleDst_err : s.scrambleDst.err = s.err := rfl
@[simp] theorem scrambleDst_matched : s.scrambleDst.matched = s.matched := rfl
@[simp] theorem scrambleDst_dropped : s.scrambleDst.dropped = s.dropped := rfl
@[simp] theorem scrambleDst_intEn : s.scrambleDst.intEn = s.intEn := rfl
@[simp] theorem scrambleDst_intPend : s.scrambleDst.intPend = s.intPend := rfl
@[simp] theorem scrambleDst_table : s.scrambleDst.table = s.table := rfl
@[simp] theorem scrambleDst_tblPresent : s.scrambleDst.tblPresent = s.tblPresent := rfl
@[simp] theorem scrambleDst_pending : s.scrambleDst.pending = s.pending := rfl
@[simp] theorem scrambleDst_rst : s.scrambleDst.rst = s.rst := rfl
@[simp] theorem scrambleDst_inputs : s.scrambleDst.inputs = s.inputs := rfl
@[simp] theorem scrambleDst_response : s.scrambleDst.response = s.response := rfl
@[simp] theorem scrambleDst_draws : s.scrambleDst.draws = s.draws + 1 := rfl
@[simp] theorem scrambleDst_dmemDraw : s.scrambleDst.dmemDraw = s.dmemDraw := rfl

/-! The table of an ENCODE (R170): only the table and TBL_PRESENT can change. -/
@[simp] theorem ensureTable_params : s.ensureTable.params = s.params := by unfold State.ensureTable; split <;> rfl
@[simp] theorem ensureTable_srcAddr : s.ensureTable.srcAddr = s.srcAddr := by unfold State.ensureTable; split <;> rfl
@[simp] theorem ensureTable_srcLen : s.ensureTable.srcLen = s.srcLen := by unfold State.ensureTable; split <;> rfl
@[simp] theorem ensureTable_dstAddr : s.ensureTable.dstAddr = s.dstAddr := by unfold State.ensureTable; split <;> rfl
@[simp] theorem ensureTable_dstCap : s.ensureTable.dstCap = s.dstCap := by unfold State.ensureTable; split <;> rfl
@[simp] theorem ensureTable_valAddr : s.ensureTable.valAddr = s.valAddr := by unfold State.ensureTable; split <;> rfl
@[simp] theorem ensureTable_valLen : s.ensureTable.valLen = s.valLen := by unfold State.ensureTable; split <;> rfl
@[simp] theorem ensureTable_outLen : s.ensureTable.outLen = s.outLen := by unfold State.ensureTable; split <;> rfl
@[simp] theorem ensureTable_resSym : s.ensureTable.resSym = s.resSym := by unfold State.ensureTable; split <;> rfl
@[simp] theorem ensureTable_errCode : s.ensureTable.errCode = s.errCode := by unfold State.ensureTable; split <;> rfl
@[simp] theorem ensureTable_done : s.ensureTable.done = s.done := by unfold State.ensureTable; split <;> rfl
@[simp] theorem ensureTable_err : s.ensureTable.err = s.err := by unfold State.ensureTable; split <;> rfl
@[simp] theorem ensureTable_matched : s.ensureTable.matched = s.matched := by unfold State.ensureTable; split <;> rfl
@[simp] theorem ensureTable_dropped : s.ensureTable.dropped = s.dropped := by unfold State.ensureTable; split <;> rfl
@[simp] theorem ensureTable_intEn : s.ensureTable.intEn = s.intEn := by unfold State.ensureTable; split <;> rfl
@[simp] theorem ensureTable_intPend : s.ensureTable.intPend = s.intPend := by unfold State.ensureTable; split <;> rfl
@[simp] theorem ensureTable_mem : s.ensureTable.mem = s.mem := by unfold State.ensureTable; split <;> rfl
@[simp] theorem ensureTable_pending : s.ensureTable.pending = s.pending := by unfold State.ensureTable; split <;> rfl
@[simp] theorem ensureTable_rst : s.ensureTable.rst = s.rst := by unfold State.ensureTable; split <;> rfl
@[simp] theorem ensureTable_inputs : s.ensureTable.inputs = s.inputs := by unfold State.ensureTable; split <;> rfl
@[simp] theorem ensureTable_response : s.ensureTable.response = s.response := by unfold State.ensureTable; split <;> rfl
@[simp] theorem ensureTable_draws : s.ensureTable.draws = s.draws := by unfold State.ensureTable; split <;> rfl
@[simp] theorem ensureTable_dmemDraw : s.ensureTable.dmemDraw = s.dmemDraw := by unfold State.ensureTable; split <;> rfl
@[simp] theorem ensureTable_tblPresent : s.ensureTable.tblPresent = true := by unfold State.ensureTable; split <;> simp_all
@[simp] theorem ensureTable_table : s.ensureTable.table = if s.tblPresent then s.table else buildTable s.srcBytes := by
  unfold State.ensureTable; split <;> rfl
@[simp] theorem readByte_ensureTable (a : Nat) : s.ensureTable.readByte a = s.readByte a := by
  unfold State.ensureTable; split <;> rfl

/-! The composed operations, said by the single ones. -/
@[simp] theorem raise_eq (e : CmdError) : s.raise e = s.clearResults.complete (some e) := rfl
@[simp] theorem succeed_eq (n : Nat) : s.succeed n = (s.setOutLen n).complete none := rfl
@[simp] theorem writeDst_eq (bs : List Byte) :
    s.writeDst bs = s.setMem (Memory.writeBytes s.mem s.dstAddr.toNat bs) := rfl
theorem scrambleDst_eq : s.scrambleDst =
    (s.setMem (Memory.writeBytes s.mem s.dstAddr.toNat
      ((List.range s.dstCap.toNat).map (fun i => Config.freeByte s.draws (s.dstAddr.toNat + i))))).nextDraw := rfl
theorem ensureTable_of_present (h : s.tblPresent = true) : s.ensureTable = s := by simp [State.ensureTable, h]
theorem ensureTable_of_absent (h : s.tblPresent = false) :
    s.ensureTable = s.setTable (buildTable s.srcBytes) true := by simp [State.ensureTable, h]

/-! Reading BUSY and operands past the updates that leave them alone. -/
@[simp] theorem busy_iff : s.busy = s.pending.isSome := rfl
@[simp] theorem readByte_setTable (t : CodeTable) (p : Bool) (a : Nat) : (s.setTable t p).readByte a = s.readByte a := rfl
@[simp] theorem readByte_complete (e : Option CmdError) (a : Nat) : (s.complete e).readByte a = s.readByte a := rfl
@[simp] theorem readByte_clearResults (a : Nat) : s.clearResults.readByte a = s.readByte a := rfl
@[simp] theorem readByte_setOutLen (n a : Nat) : (s.setOutLen n).readByte a = s.readByte a := rfl
@[simp] theorem readByte_setMatch (y : Symbol) (n a : Nat) : (s.setMatch y n).readByte a = s.readByte a := rfl
@[simp] theorem readByte_setNoMatch (a : Nat) : s.setNoMatch.readByte a = s.readByte a := rfl
@[simp] theorem readByte_accept (w : Word) (a : Nat) : (s.accept w).readByte a = s.readByte a := rfl
@[simp] theorem readByte_setInputs (l : List Input) (a : Nat) : (s.setInputs l).readByte a = s.readByte a := rfl
@[simp] theorem readByte_respond (r : Response) (a : Nat) : (s.respond r).readByte a = s.readByte a := rfl
@[simp] theorem readByte_nextDraw (a : Nat) : s.nextDraw.readByte a = s.readByte a := rfl
@[simp] theorem srcBytes_setTable (t : CodeTable) (p : Bool) : (s.setTable t p).srcBytes = s.srcBytes := rfl
@[simp] theorem srcBytes_setInputs (l : List Input) : (s.setInputs l).srcBytes = s.srcBytes := rfl

end Sys2Proof.Machine
end

