-- ==== Sys2Proof/Laws/Table.lean ====
section
/-! SUPPORT. The laws of the code table: lookup after `register` and in the empty table, what `findCode` answers. -/

namespace Sys2Proof.Machine

@[simp] theorem lookup_emptyTable (s : Symbol) : emptyTable.lookup s = none := by
  simp [CodeTable.lookup, emptyTable]

@[simp] theorem lookup_register (t : CodeTable) (s r : Symbol) (c : Bits) :
    (t.register s c).lookup r = if r = s then some c else t.lookup r := by
  unfold CodeTable.lookup CodeTable.register
  rw [Vector.getElem_set]
  by_cases h : r = s
  · simp [h]
  · have h2 : s.toNat ≠ r.toNat := fun e => h (BitVec.eq_of_toNat_eq e.symm)
    simp [h, h2]

@[simp] theorem count_register (t : CodeTable) (s : Symbol) (c : Bits) : (t.register s c).count = t.count + 1 := rfl

@[simp] theorem minLen_register (t : CodeTable) (s : Symbol) (c : Bits) :
    (t.register s c).minLen = if t.count = 0 then c.length else min t.minLen c.length := rfl

@[simp] theorem maxLen_register (t : CodeTable) (s : Symbol) (c : Bits) :
    (t.register s c).maxLen = if t.count = 0 then c.length else max t.maxLen c.length := rfl

/-- An entry matches exactly when it holds a code of the form and length asked for. -/
theorem entryMatches_iff {α : Type} [DecidableEq α] (form : Bits → List α) (pre : List α) (e : Option Bits) :
    entryMatches form pre e = true ↔ ∃ c, e = some c ∧ c.length = pre.length ∧ form c = pre := by
  cases e <;> simp [entryMatches]

/-- `findCode` answers the least symbol whose code has the form and length asked for. -/
theorem findCode_eq_some {α : Type} [DecidableEq α] (t : CodeTable) (form : Bits → List α) (pre : List α) (s : Symbol) :
    t.findCode form pre = some s ↔
      entryMatches form pre (t.lookup s) = true ∧
        ∀ r : Symbol, r.toNat < s.toNat → entryMatches form pre (t.lookup r) = false := by
  unfold CodeTable.findCode
  have hl : t.entries.toList.length = 256 := by simp
  constructor
  · intro h
    obtain ⟨i, hi, hs⟩ := Option.map_eq_some_iff.1 h
    obtain ⟨hlt, hp, hmin⟩ := List.findIdx?_eq_some_iff_getElem.1 hi
    have hi256 : i < 256 := by omega
    have hsi : s.toNat = i := by rw [← hs, BitVec.toNat_ofNat]; omega
    refine ⟨?_, ?_⟩
    · simpa [CodeTable.lookup, hsi] using hp
    · intro r hr
      have := hmin r.toNat (by omega)
      simpa [CodeTable.lookup] using this
  · rintro ⟨hp, hmin⟩
    refine Option.map_eq_some_iff.2 ⟨s.toNat, ?_, by simp⟩
    refine List.findIdx?_eq_some_iff_getElem.2 ⟨by have := s.isLt; omega, ?_, ?_⟩
    · simpa [CodeTable.lookup] using hp
    · intro j hj
      have hj256 : j < 256 := by have := s.isLt; omega
      have := hmin (BitVec.ofNat 8 j) (by rw [BitVec.toNat_ofNat]; omega)
      have he : (BitVec.ofNat 8 j).toNat = j := by rw [BitVec.toNat_ofNat]; omega
      simpa [CodeTable.lookup, he] using this

/-- `findCode` answers none exactly when no entry matches. -/
theorem findCode_eq_none {α : Type} [DecidableEq α] (t : CodeTable) (form : Bits → List α) (pre : List α) :
    t.findCode form pre = none ↔ ∀ r : Symbol, entryMatches form pre (t.lookup r) = false := by
  unfold CodeTable.findCode
  rw [Option.map_eq_none_iff, List.findIdx?_eq_none_iff]
  constructor
  · intro h r
    exact h _ (by simp [CodeTable.lookup])
  · intro h e he
    obtain ⟨i, hi, rfl⟩ := List.getElem_of_mem he
    have hi256 : i < 256 := by simpa using hi
    have := h (BitVec.ofNat 8 i)
    have he : (BitVec.ofNat 8 i).toNat = i := by rw [BitVec.toNat_ofNat]; omega
    simpa [CodeTable.lookup, he] using this

end Sys2Proof.Machine
end

