-- ==== Sys2Proof/Laws/Ops.lean ====
section
/-! SUPPORT. One lemma per shared operation that says once all it can do: the operand checks, the destination writes, what
each command's meaning can answer, and what a step can do. -/

namespace Sys2Proof.Machine

/-! ### Operand checks -/

theorem inDmem_iff (p : Params) (base len : Word) :
    inDmem p base len = true ↔ len.toNat = 0 ∨ base.toNat + len.toNat ≤ 2 ^ p.dmemLog2 := by
  unfold inDmem dmemSize
  exact decide_eq_true_iff

theorem overlaps_iff (a la b lb : Word) :
    overlaps a la b lb = true ↔
      0 < la.toNat ∧ 0 < lb.toNat ∧ a.toNat < b.toNat + lb.toNat ∧ b.toNat < a.toNat + la.toNat := by
  unfold overlaps
  exact decide_eq_true_iff

/-! ### Bytes of the destination -/

theorem readByte_setMem_writeBytes (s : State) (bs : List Byte) (a b : Nat) :
    (s.setMem (Memory.writeBytes s.mem a bs)).readByte b =
      if a ≤ b ∧ b < a + bs.length then bs.getD (b - a) 0 else s.readByte b :=
  readByte_writeBytes s bs a b

/-- A byte after a write to the destination. -/
theorem readByte_writeDst (s : State) (bs : List Byte) (b : Nat) :
    (s.writeDst bs).readByte b =
      if s.dstAddr.toNat ≤ b ∧ b < s.dstAddr.toNat + bs.length then bs.getD (b - s.dstAddr.toNat) 0 else s.readByte b :=
  readByte_writeBytes s bs s.dstAddr.toNat b

/-- A byte after a late error of ENCODE or DECODE: a free value inside the destination range (R197). -/
theorem readByte_scrambleDst (s : State) (b : Nat) :
    s.scrambleDst.readByte b =
      if s.dstAddr.toNat ≤ b ∧ b < s.dstAddr.toNat + s.dstCap.toNat then Config.freeByte s.draws b
      else s.readByte b := by
  show (s.writeDst _).readByte b = _
  rw [readByte_writeDst]
  simp only [List.length_map, List.length_range]
  split
  · rename_i h
    have h1 : b - s.dstAddr.toNat < s.dstCap.toNat := by omega
    have h2 : s.dstAddr.toNat + (b - s.dstAddr.toNat) = b := by omega
    simp [h1, h2]
  · rfl

/-! ### What each command can answer -/

theorem execGenerate_cases {s t : State} (h : execGenerate s = .next t) :
    (s.srcOk = true ∧ t = (s.setTable (buildTable s.srcBytes) true).succeed 0) ∨
    (s.srcOk = false ∧ t = s.raise .rangeError) := by
  unfold execGenerate at h
  split at h <;> cases h <;> simp_all

theorem execSet_cases {s t : State} (h : execSet s = .next t) :
    (∃ e, setError s = some e ∧ t = s.raise e) ∨
    (setError s = none ∧
      t = (s.setTable (s.table.register s.entrySymbol (bitsOfChars s.valBytes)) true).succeed 0) := by
  unfold execSet at h
  split at h <;> cases h <;> simp_all

theorem execGet_cases {s t : State} (h : execGet s = .next t) :
    (∃ e, getCode s = .error e ∧ t = s.raise e) ∨
    (∃ c, getCode s = .ok c ∧ t = (s.writeDst (chars c)).succeed c.length) := by
  unfold execGet at h
  split at h <;> cases h <;> simp_all

theorem execMatchPrefix_cases {s t : State} (h : execMatchPrefix s = .next t) :
    (s.srcOk = false ∧ t = s.raise .rangeError) ∨
    (s.srcOk = true ∧ s.table.matchPrefix chars s.srcBytes = none ∧ t = s.setNoMatch.succeed 0) ∨
    (∃ y n, s.srcOk = true ∧ s.table.matchPrefix chars s.srcBytes = some (y, n) ∧
      t = (s.setMatch y n).succeed n) := by
  unfold execMatchPrefix at h
  split at h
  · split at h <;> cases h <;> simp_all
  · cases h; simp_all

theorem execClear_cases {s t : State} (h : execClear s = .next t) : t = (s.setTable emptyTable false).succeed 0 := by
  unfold execClear at h
  cases h; rfl

theorem execEncode_cases {s t : State} (h : execEncode s = .next t) :
    (∃ e, codecOperandError s = some e ∧ t = s.raise e) ∨
    (codecOperandError s = none ∧ s.srcLen = 0 ∧ t = s.succeed 0) ∨
    (codecOperandError s = none ∧ s.srcLen ≠ 0 ∧ encodeStream s.ensureTable.table s.srcBytes = none ∧
      t = s.ensureTable.scrambleDst.raise .unknownSymbol) ∨
    (∃ out, codecOperandError s = none ∧ s.srcLen ≠ 0 ∧ encodeStream s.ensureTable.table s.srcBytes = some out ∧
      s.dstCap.toNat < out.length ∧ t = s.ensureTable.scrambleDst.raise .capacityExceeded) ∨
    (∃ out, codecOperandError s = none ∧ s.srcLen ≠ 0 ∧ encodeStream s.ensureTable.table s.srcBytes = some out ∧
      out.length ≤ s.dstCap.toNat ∧ t = (s.ensureTable.writeDst out).succeed out.length) := by
  unfold execEncode at h
  split at h
  · cases h; simp_all
  · split at h
    · cases h; simp_all
    · split at h
      · cases h; simp_all
      · split at h <;> cases h <;> simp_all

theorem execDecode_cases {s t : State} (h : execDecode s = .next t) :
    (∃ e, codecOperandError s = some e ∧ t = s.raise e) ∨
    (codecOperandError s = none ∧ s.srcLen = 0 ∧ t = s.succeed 0) ∨
    (∃ e, codecOperandError s = none ∧ s.srcLen ≠ 0 ∧ decodeStream s.table s.dstCap.toNat s.srcBytes = .error e ∧
      t = s.scrambleDst.raise e) ∨
    (∃ out, codecOperandError s = none ∧ s.srcLen ≠ 0 ∧ decodeStream s.table s.dstCap.toNat s.srcBytes = .ok out ∧
      t = (s.writeDst out).succeed out.length) := by
  unfold execDecode at h
  split at h
  · cases h; simp_all
  · split at h
    · cases h; simp_all
    · split at h <;> cases h <;> simp_all

/-- A command always completes. -/
theorem exec_total (i : Instr) (s : State) : ∃ t, exec i s = .next t := by
  cases i <;> simp only [exec]
  case generate => unfold execGenerate; split <;> exact ⟨_, rfl⟩
  case set => unfold execSet; split <;> exact ⟨_, rfl⟩
  case get => unfold execGet; split <;> exact ⟨_, rfl⟩
  case matchPrefix => unfold execMatchPrefix; repeat' split
                      all_goals exact ⟨_, rfl⟩
  case encode => unfold execEncode; repeat' split
                 all_goals exact ⟨_, rfl⟩
  case decode => unfold execDecode; repeat' split
                 all_goals exact ⟨_, rfl⟩
  case clear => exact ⟨_, rfl⟩

/-! ### What a step can do -/

theorem engineStep_cases {s t : State} (h : engineStep s = .next t) :
    (s.pending = none ∧ t = s) ∨
    (∃ w i, s.pending = some w ∧ decode w = .ok i ∧ exec i s = .next t) ∨
    (∃ w e, s.pending = some w ∧ decode w = .error e ∧ t = s.raise .badCommand) := by
  unfold engineStep at h
  split at h
  · cases h; simp_all
  · split at h
    · simp_all
    · cases h; simp_all

/-- The step of a state whose next input is a host transaction. -/
theorem step_host {s : State} {x : Txn} {rest : List Input} (hi : s.inputs = .host x :: rest) (hr : s.rst = false) :
    step s = .next ((s.setInputs rest).hostTxn x) := by
  simp [step, machineStep, hi, perform, hr]

/-- The step of a state whose next input is the engine's turn. -/
theorem step_engine {s : State} {rest : List Input} (hi : s.inputs = .engine :: rest) :
    step s = engineStep (s.setInputs rest) := by
  simp [step, machineStep, hi, perform]

/-- The step of a state with no input coming. -/
theorem step_nil {s : State} (hi : s.inputs = []) : step s = engineStep s := by
  simp [step, machineStep, hi]

theorem engineStep_ok {s : State} {w : Word} {i : Instr} (hp : s.pending = some w) (hd : decode w = .ok i) :
    engineStep s = exec i s := by
  simp [engineStep, hp, hd]

theorem engineStep_error {s : State} {w : Word} {e : DecodeError} (hp : s.pending = some w) (hd : decode w = .error e) :
    engineStep s = .next (s.raise .badCommand) := by
  simp only [engineStep, hp, hd]

/-- A step is the engine's, a host transaction's, or an edge of `rst`. -/
theorem step_cases {s t : State} (h : step s = .next t) :
    (s.inputs = [] ∧ engineStep s = .next t) ∨
    (∃ rest, s.inputs = .engine :: rest ∧ engineStep (s.setInputs rest) = .next t) ∨
    (∃ x rest, s.inputs = .host x :: rest ∧ s.rst = false ∧ t = (s.setInputs rest).hostTxn x) ∨
    (∃ rest, s.inputs = .rstAssert :: rest ∧ t = (s.setInputs rest).assertReset) ∨
    (∃ rest, s.inputs = .rstRelease :: rest ∧ t = (s.setInputs rest).releaseReset) := by
  unfold step machineStep at h
  split at h
  · exact .inl ⟨by assumption, h⟩
  · rename_i i rest hi
    cases i with
    | engine => exact .inr (.inl ⟨rest, hi, h⟩)
    | host x =>
      by_cases hr : s.rst = true
      · simp [perform, hr] at h
      · simp only [perform, setInputs_rst, hr] at h
        cases h
        exact .inr (.inr (.inl ⟨x, rest, hi, by simpa using hr, rfl⟩))
    | rstAssert => cases h; exact .inr (.inr (.inr (.inl ⟨rest, hi, rfl⟩)))
    | rstRelease => cases h; exact .inr (.inr (.inr (.inr ⟨rest, hi, rfl⟩)))

end Sys2Proof.Machine
end

