-- ==== Sys2Proof/Laws/PerInstr.lean ====
section
/-! SUPPORT. Statements about each command as syntax, one lemma per constructor. -/

namespace Sys2Proof.Laws.EncodedWord

/-- The CMD word of a command is a legal one (R83): its OPCODE field is the command's, the bits above it are zero. -/
def Statement (i : Instr) : Prop :=
  opcodeField (encode i) = opcodeOf i ∧ reservedField (encode i) = 0 ∧ cmdWordWf (encode i) = true

theorem generate : Statement .generate := by unfold Statement; decide
theorem set : Statement .set := by unfold Statement; decide
theorem get : Statement .get := by unfold Statement; decide
theorem matchPrefix : Statement .matchPrefix := by unfold Statement; decide
theorem encode : Statement .encode := by unfold Statement; decide
theorem decode : Statement .decode := by unfold Statement; decide
theorem clear : Statement .clear := by unfold Statement; decide

end Sys2Proof.Laws.EncodedWord
end

