-- ==== Sys2Proof/Laws/TreeBuilder.lean ====
section
/-! SUPPORT. The laws of the tree builder's parts: the symbols of a source, the least element of the queue, what the merge
loop keeps. -/

namespace Sys2Proof.Machine

theorem mem_allSymbols (s : Symbol) : s ∈ allSymbols :=
  List.mem_map.2 ⟨s.toNat, List.mem_range.2 s.isLt, by simp⟩

theorem allSymbols_nodup : allSymbols.Nodup := by
  refine List.Nodup.map_on ?_ List.nodup_range
  intro x hx y hy h
  have h2 := congrArg BitVec.toNat h
  rw [List.mem_range] at hx hy
  simp only [BitVec.toNat_ofNat] at h2
  omega

/-- The leaves are the symbols of the source (R102, R103). -/
theorem mem_leafSymbols (src : List Byte) (s : Symbol) : s ∈ leafSymbols src ↔ s ∈ src := by
  simp [leafSymbols, freq, mem_allSymbols, List.count_pos_iff]

theorem leafSymbols_nodup (src : List Byte) : (leafSymbols src).Nodup := allSymbols_nodup.filter _

theorem initialQueue_length (src : List Byte) : (initialQueue src).length = (leafSymbols src).length := by
  simp [initialQueue]

theorem popLeast_eq_none {q : List QNode} : popLeast q = none ↔ q = [] := by
  cases q with
  | nil => simp [popLeast]
  | cons a qs =>
    unfold popLeast
    split
    · simp
    · split <;> simp

/-- The node popped and the rest are the queue. -/
theorem popLeast_perm {q rest : List QNode} {m : QNode} (h : popLeast q = some (m, rest)) : (m :: rest).Perm q := by
  induction q generalizing m rest with
  | nil => cases h
  | cons a qs ih =>
    unfold popLeast at h
    split at h
    · rename_i hn
      cases h
      simp [popLeast_eq_none.1 hn]
    · rename_i x r hr
      split at h <;> cases h
      · exact (List.Perm.swap ..).trans ((ih hr).cons a)
      · exact List.Perm.refl _

theorem popLeast_length {q rest : List QNode} {m : QNode} (h : popLeast q = some (m, rest)) :
    q.length = rest.length + 1 := by
  simpa using (popLeast_perm h).length_eq.symm

/-- No node of the rest is before the node popped (R104). -/
theorem popLeast_least {q rest : List QNode} {m : QNode} (h : popLeast q = some (m, rest)) :
    ∀ x ∈ rest, x.before m = false := by
  induction q generalizing m rest with
  | nil => cases h
  | cons a qs ih =>
    unfold popLeast at h
    split at h
    · cases h; simp
    · rename_i y r hr
      split at h
      · rename_i hb
        cases h
        intro x hx
        rcases List.mem_cons.1 hx with rfl | hx
        · simp only [QNode.before, decide_eq_true_eq, decide_eq_false_iff_not] at hb ⊢
          omega
        · exact ih hr x hx
      · rename_i hb
        cases h
        intro x hx
        rcases List.mem_cons.1 ((popLeast_perm hr).mem_iff.2 hx) with rfl | hx
        · simpa using hb
        · have := ih hr x hx
          simp only [QNode.before, decide_eq_true_eq, decide_eq_false_iff_not] at hb this ⊢
          omega

/-- The merge loop on a queue with two nodes at least: one merge, then the rest of the loop. -/
theorem mergeLoop_two {fuel seq : Nat} {q q1 q2 : List QNode} {a b : QNode} (ha : popLeast q = some (a, q1))
    (hb : popLeast q1 = some (b, q2)) :
    mergeLoop (fuel + 1) seq q =
      mergeLoop fuel (seq + 1) (q2 ++ [⟨seq, .node (a.tree.weight + b.tree.weight) a.tree b.tree⟩]) := by
  simp [mergeLoop, ha, hb]

theorem mergeLoop_short {fuel seq : Nat} {q : List QNode} (h : q.length ≤ 1) : mergeLoop fuel seq q = q := by
  cases fuel with
  | zero => rfl
  | succ n =>
    unfold mergeLoop
    split
    · rfl
    · rename_i ha
      have := popLeast_length ha
      split
      · rfl
      · rename_i hb
        have := popLeast_length hb
        omega

/-- A property that every merge keeps holds of the loop's result. -/
theorem mergeLoop_induct {P : Nat → List QNode → Prop}
    (hstep : ∀ seq q a q1 b q2, P seq q → popLeast q = some (a, q1) → popLeast q1 = some (b, q2) →
      P (seq + 1) (q2 ++ [⟨seq, .node (a.tree.weight + b.tree.weight) a.tree b.tree⟩]))
    (fuel seq : Nat) (q : List QNode) (h : P seq q) : ∃ seq', P seq' (mergeLoop fuel seq q) := by
  induction fuel generalizing seq q with
  | zero => exact ⟨seq, h⟩
  | succ n ih =>
    unfold mergeLoop
    split
    · exact ⟨seq, h⟩
    · split
      · exact ⟨seq, h⟩
      · exact ih _ _ (hstep _ _ _ _ _ _ h ‹_› ‹_›)

/-- The loop of a non-empty queue ends with one node, the root (R104). -/
theorem mergeLoop_root {fuel seq : Nat} {q : List QNode} (hq : q ≠ []) (hf : q.length ≤ fuel + 1) :
    ∃ root, mergeLoop fuel seq q = [root] := by
  induction fuel generalizing seq q with
  | zero =>
    obtain ⟨a, rfl⟩ := List.length_eq_one_iff.1 (show q.length = 1 by
      have := List.length_pos_iff.2 hq; omega)
    exact ⟨a, rfl⟩
  | succ n ih =>
    cases ha : popLeast q with
    | none => exact absurd (popLeast_eq_none.1 ha) hq
    | some p =>
      obtain ⟨a, q1⟩ := p
      have l1 := popLeast_length ha
      cases hb : popLeast q1 with
      | none =>
        have := popLeast_eq_none.1 hb
        subst this
        obtain ⟨r, hr⟩ := List.length_eq_one_iff.1 (show q.length = 1 by simpa using l1)
        exact ⟨r, by rw [mergeLoop_short (by simp [hr]), hr]⟩
      | some p =>
        obtain ⟨b, q2⟩ := p
        have l2 := popLeast_length hb
        rw [mergeLoop_two ha hb]
        exact ih (by simp) (by simp; omega)

end Sys2Proof.Machine
end

