-- ==== Sys2Proof/Tests/Slice0.lean ====
section
/-! SUPPORT. The model's own tests. Expected results are the spec's: the opcode map (R82), the vectors of
95_test_vectors.md (named V in the comments), the examples of the rules. The last part holds, for each statement with
hypotheses, a witness that meets them. -/

namespace Sys2Proof.Tests
open Sys2Proof.Machine

-- One theorem at a time: each kernel evaluation would otherwise hold a thread of its own.
set_option Elab.async false

/-! ### Helpers -/

/-- Bytes at consecutive addresses, as memory cells. -/
def cells (a : Nat) (bs : List Byte) : Memory := bs.zipIdx.map (fun x => (a + x.2, x.1))

/-- A table with the given entries. -/
def tableOf (es : List (Symbol × Bits)) : CodeTable := es.foldl (fun t e => t.register e.1 e.2) emptyTable

/-- The bits of a string of 0s and 1s given as a list of numbers. -/
def bits (l : List Nat) : Bits := l.map (fun n => n == 1)

/-- "aaabbc" -/
def aaabbc : List Byte := [0x61, 0x61, 0x61, 0x62, 0x62, 0x63]

/-- The table of "aaabbc" (V1): a = 0, b = 11, c = 10. -/
def abcTable : CodeTable := tableOf [(0x61, bits [0]), (0x62, bits [1, 1]), (0x63, bits [1, 0])]

/-- A reset state with bytes at 0x040, source range on them, destination 0x400 of a given capacity. -/
def onBytes (bs : List Byte) (cap : Word) : State :=
  { State.reset with mem := cells 0x040 bs, srcAddr := 0x040, srcLen := BitVec.ofNat 32 bs.length
                     dstAddr := 0x400, dstCap := cap }

/-- The same with a table present. -/
def withTable (t : CodeTable) (s : State) : State := { s with table := t, tblPresent := true }

/-- The same with code characters as the value range, at 0x080. -/
def withValue (vs : List Byte) (s : State) : State :=
  { s with mem := s.mem ++ cells 0x080 vs, valAddr := 0x080, valLen := BitVec.ofNat 32 vs.length }

/-- The state after a command. -/
def after (i : Instr) (s : State) : State :=
  match exec i s with
  | .next t => t
  | _ => s

/-- The state after a step, if there is one. -/
def stepped (s : State) : State :=
  match step s with
  | .next t => t
  | _ => s

/-- Does the step answer a next state? -/
def goesOn (s : State) : Bool :=
  match step s with
  | .next _ => true
  | _ => false

theorem exec_after (i : Instr) (s : State) : exec i s = .next (after i s) := by
  obtain ⟨t, h⟩ := exec_total i s
  simp [after, h]

theorem step_stepped {s : State} (h : goesOn s = true) : step s = .next (stepped s) := by
  unfold goesOn at h
  unfold stepped
  split at h
  · rename_i t ht; rw [ht]
  · cases h

/-- A state with a command pending, the engine's turn next. -/
def pendingState (w : Word) : State := { State.reset with pending := some w, inputs := [.engine] }

/-- A state with a command pending, a host transaction next. -/
def busyHost (t : Txn) : State := { State.reset with pending := some 1, inputs := [.host t], dropped := true, srcLen := 5 }

/-- An idle state, a host transaction next. -/
def idleHost (t : Txn) : State := { State.reset with inputs := [.host t] }

/-! ### Well-formedness: each check refuses an ill-formed term -/

theorem test_wf_reference : Config.reference.wf = true := by decide
theorem test_wf_dmem_too_small : Params.wf { dmemLog2 := 9, codeLenMax := 256 } = false := by decide
theorem test_wf_dmem_too_large : Params.wf { dmemLog2 := 25, codeLenMax := 256 } = false := by decide
theorem test_wf_code_len_too_small : Params.wf { dmemLog2 := 16, codeLenMax := 254 } = false := by decide
theorem test_wf_code_len_too_large : Params.wf { dmemLog2 := 16, codeLenMax := 65536 } = false := by decide
theorem test_wf_code_empty : codeWf Config.reference [] = false := by decide
theorem test_wf_code_too_long : codeWf Config.reference (List.replicate 257 true) = false := by decide +kernel
theorem test_wf_code_longest : codeWf Config.reference (List.replicate 256 true) = true := by decide +kernel
theorem test_wf_word_zero : cmdWordWf 0 = false := by decide
theorem test_wf_word_opcode_8 : cmdWordWf 8 = false := by decide
theorem test_wf_word_reserved : cmdWordWf 0x00000101 = false := by decide

/-! ### Decoding: the words written out from R80 and R82, and illegal words (R83) -/

theorem test_decode_generate : decode ((0b000000000000000000000000 : BitVec 24) ++ (0b00000001 : BitVec 8)) = .ok .generate := by decide
theorem test_decode_set : decode ((0b000000000000000000000000 : BitVec 24) ++ (0b00000010 : BitVec 8)) = .ok .set := by decide
theorem test_decode_get : decode ((0b000000000000000000000000 : BitVec 24) ++ (0b00000011 : BitVec 8)) = .ok .get := by decide
theorem test_decode_match : decode ((0b000000000000000000000000 : BitVec 24) ++ (0b00000100 : BitVec 8)) = .ok .matchPrefix := by decide
theorem test_decode_encode : decode ((0b000000000000000000000000 : BitVec 24) ++ (0b00000101 : BitVec 8)) = .ok .encode := by decide
theorem test_decode_decode : decode ((0b000000000000000000000000 : BitVec 24) ++ (0b00000110 : BitVec 8)) = .ok .decode := by decide
theorem test_decode_clear : decode ((0b000000000000000000000000 : BitVec 24) ++ (0b00000111 : BitVec 8)) = .ok .clear := by decide
/-- V80, V81 -/
theorem test_decode_bad_opcode : decode 0 = .error .badOpcode ∧ decode 8 = .error .badOpcode ∧ decode 0xFF = .error .badOpcode := by decide
/-- V82, V42 -/
theorem test_decode_reserved : decode 0x00000101 = .error .reservedBits ∧ decode 0x80000007 = .error .reservedBits := by decide

/-! ### One step of each command -/

/-- V1: a = 0, c = 10, b = 11; TBL_COUNT, MIN_LEN, MAX_LEN are 3, 1, 2. -/
theorem test_generate_aaabbc :
    let t := (after .generate (onBytes aaabbc 0)).table
    t.lookup 0x61 = some (bits [0]) ∧ t.lookup 0x62 = some (bits [1, 1]) ∧ t.lookup 0x63 = some (bits [1, 0]) ∧
    t.lookup 0x64 = none ∧ t.count = 3 ∧ t.minLen = 1 ∧ t.maxLen = 2 := by decide +kernel
/-- V7: c = 0, a = 10, b = 11. -/
theorem test_generate_tie : (after .generate (onBytes [0x61, 0x62, 0x63] 0)).table.lookup 0x63 = some (bits [0]) ∧
    (after .generate (onBytes [0x61, 0x62, 0x63] 0)).table.lookup 0x61 = some (bits [1, 0]) := by decide +kernel
/-- V20: STATUS 0x12 after a SET on an absent table. -/
theorem test_set_first : (after .set (withValue [0x30, 0x31] (onBytes [0x61] 0))).table.lookup 0x61 = some (bits [0, 1]) ∧
    (after .set (withValue [0x30, 0x31] (onBytes [0x61] 0))).statusWord = 0x12 := by decide +kernel
/-- V22: DuplicateEntry, STATUS 0x16. -/
theorem test_set_duplicate :
    (after .set (withValue [0x31, 0x30] (withTable abcTable (onBytes [0x61] 0)))).errCode = 2 ∧
    (after .set (withValue [0x31, 0x30] (withTable abcTable (onBytes [0x61] 0)))).statusWord = 0x16 := by decide +kernel
/-- V45: 31 31 in the destination. -/
theorem test_get_b : (after .get (withTable abcTable (onBytes [0x62] 8))).memRead 0x400 2 = [0x31, 0x31] ∧
    (after .get (withTable abcTable (onBytes [0x62] 8))).outLen = 2 := by decide +kernel
/-- V48: CapacityExceeded. -/
theorem test_get_capacity : (after .get (withTable abcTable (onBytes [0x62] 1))).errCode = 9 := by decide +kernel
/-- V30: b, two characters consumed, SRC_ADDR 0x042, SRC_LEN 1. -/
theorem test_match_b :
    let t := after .matchPrefix (withTable abcTable (onBytes [0x31, 0x31, 0x30] 0))
    t.resSym = 0x62 ∧ t.outLen = 2 ∧ t.statusWord = 0x1A ∧ t.srcAddr = 0x042 ∧ t.srcLen = 1 := by decide +kernel
/-- V33: a = 0 before b = 01, the shortest match. -/
theorem test_match_shortest :
    (after .matchPrefix (withTable (tableOf [(0x61, bits [0]), (0x62, bits [0, 1])]) (onBytes [0x30, 0x31] 0))).resSym = 0x61 := by
  decide +kernel
/-- V50: 8F A0, on an absent table. -/
theorem test_encode_aaabbc : (after .encode (onBytes aaabbc 16)).memRead 0x400 2 = [0x8F, 0xA0] ∧
    (after .encode (onBytes aaabbc 16)).outLen = 2 := by decide +kernel
/-- V56: CapacityExceeded, the built table stays, STATUS 0x16. -/
theorem test_encode_capacity : (after .encode (onBytes aaabbc 1)).errCode = 9 ∧
    (after .encode (onBytes aaabbc 1)).table.count = 3 ∧ (after .encode (onBytes aaabbc 1)).statusWord = 0x16 := by
  decide +kernel
/-- V74: leading 0 bits are discarded with the first sentinel. -/
theorem test_decode_leading_zeros :
    (after .decode (withTable abcTable (onBytes [0x47, 0xD0] 64))).memRead 0x400 6 = aaabbc ∧
    (after .decode (withTable abcTable (onBytes [0x47, 0xD0] 64))).outLen = 6 := by decide +kernel
/-- V71: a, a, then 1 matches nothing: CorruptStream, met before the capacity. -/
theorem test_decode_stream_order : (after .decode (withTable abcTable (onBytes [0x98] 2))).errCode = 5 ∧
    (after .decode (withTable abcTable (onBytes [0x98] 1))).errCode = 9 := by decide +kernel
/-- V40: STATUS 0x02, counts 0. -/
theorem test_clear : (after .clear (withTable abcTable State.reset)).statusWord = 0x02 ∧
    (after .clear (withTable abcTable State.reset)).table.count = 0 ∧
    (after .clear (withTable abcTable State.reset)).table.lookup 0x61 = none := by decide +kernel

/-! ### One step of the host port -/

/-- V88b: 61 62 63 64 in address order. -/
theorem test_dmem_little_endian :
    (stepped (idleHost (.write 0x01000000 (.w32 0x64636261)))).memRead 0 4 = [0x61, 0x62, 0x63, 0x64] := by decide +kernel
/-- V88: ID and CFG. -/
theorem test_id_cfg : (stepped (idleHost (.read 0x000 .b4))).response = some (.data (.w32 0x48434331)) ∧
    (stepped (idleHost (.read 0x004 .b4))).response = some (.data (.w32 0x00002010)) := by decide +kernel
/-- V88a, V88c, V88d: error responses. -/
theorem test_bad_access : (stepped (idleHost (.read 0x00C .b2))).response = some .error ∧
    (stepped (idleHost (.read 0x01000002 .b4))).response = some .error ∧
    (stepped (idleHost (.read 0x01010000 .b1))).response = some .error := by decide +kernel
/-- V87: a CMD write while BUSY is dropped. -/
theorem test_dropped : (stepped (busyHost (.write 0x008 (.w32 7)))).dropped = true ∧
    (stepped (busyHost (.write 0x008 (.w32 7)))).pending = some 1 := by decide +kernel
/-- R223: no step for a host transaction while `rst` is asserted. -/
theorem test_host_during_reset :
    goesOn { idleHost (.read 0x000 .b4) with rst := true } = false := by decide +kernel
/-- The first instruction after reset. -/
theorem test_first_instruction :
    (stepped (State.reset.withFetchWord 32 0x00000001)).tblPresent = true := by decide +kernel

/-! ### Witnesses: for each statement with hypotheses, a state and operands that meet them -/

theorem witness_StepRunsDecodedCommand :
    ((pendingState 7).pending = some 7 ∧ decode 7 = .ok .clear ∧ (pendingState 7).inputs = .engine :: []) ∧
    ({ pendingState 1 with inputs := [] } : State).inputs = [] := by decide +kernel

theorem witness_CmdWriteAccepts :
    (idleHost (.write 0x008 (.w32 0xFFFFFFFF))).pending = none ∧ (idleHost (.write 0x008 (.w32 0xFFFFFFFF))).rst = false ∧
    (idleHost (.write 0x008 (.w32 0xFFFFFFFF))).inputs = .host (.write 0x008 (.w32 0xFFFFFFFF)) :: [] := by decide +kernel

theorem witness_EngineStepCompletes :
    ({ State.reset with inputs := [.engine] } : State).pending = none ∧
    (pendingState 1).pending = some 1 ∧ (pendingState 1).EngineTurn ∧ decode 1 = .ok .generate ∧
    (pendingState 8).pending = some 8 ∧ (pendingState 8).EngineTurn ∧ decode 8 = .error .badOpcode := by decide +kernel

/-- The boundary words 0, 8, 255 and 256. -/
theorem witness_IllegalWordIsBadCommand :
    ([(0 : Word), 8, 0xFF, 0x100, 0xFFFFFFFF].all fun w =>
      decide (w.toNat % 256 = 0 ∨ 8 ≤ w.toNat % 256 ∨ w.toNat / 256 ≠ 0)) = true ∧
    ({ State.reset with inputs := [.host (.write 0x008 (.w32 0x100)), .engine] } : State).pending = none ∧
    ({ State.reset with inputs := [.host (.write 0x008 (.w32 0x100)), .engine] } : State).rst = false := by
  decide +kernel

theorem witness_OnlyCmdWritesStartCommands :
    (goesOn (idleHost (.write 0x008 (.w32 3))) = true ∧ (idleHost (.write 0x008 (.w32 3))).busy = false ∧
      (stepped (idleHost (.write 0x008 (.w32 3)))).busy = true) ∧
    (goesOn (pendingState 7) = true ∧ (pendingState 7).busy = true ∧
      (stepped (pendingState 7)).pending ≠ (pendingState 7).pending) := by decide +kernel

/-- R194 at its boundaries: V83, V84, V85, and ranges that touch or share one byte. -/
theorem witness_RangeAndOverlapChecks :
    let s := onBytes [0x61] 4
    (after .generate { s with srcAddr := 0xFFFF, srcLen := 2 }).errCode = 7 ∧
    (after .generate { s with srcAddr := 0xFFFFFFFF, srcLen := 0 }).errCode = 0 ∧
    (after .get { s with dstAddr := 0xFFFD }).errCode = 7 ∧
    (after .set { s with valAddr := 0xFFFF, valLen := 2 }).errCode = 7 ∧
    (after .get { s with dstAddr := 0x03D }).errCode = 8 ∧
    (after .get { s with dstAddr := 0x03C }).errCode = 4 ∧
    (after .get { s with dstAddr := 0x041 }).errCode = 4 := by decide +kernel

theorem witness_CommandErrorSets : exec .clear State.reset = .next (after .clear State.reset) := exec_after _ _

/-- Each clause: an early error, a late error of DECODE, a late error of an ENCODE that built its table, BadCommand. -/
theorem witness_ErrorLeavesState :
    (after .generate { State.reset with srcAddr := 0xFFFF, srcLen := 2 }).errCode ≠ 0 ∧
    (after .decode (onBytes [0x00] 2)).errCode = 5 ∧ (onBytes [0x00] 2).InDst 0x400 ∧ (onBytes [0x00] 2).InDst 0x401 ∧
    ¬ (onBytes [0x00] 2).InDst 0x402 ∧
    (after .encode (onBytes aaabbc 1)).errCode = 9 ∧ (onBytes aaabbc 1).tblPresent = false ∧
    (pendingState 0).pending = some 0 ∧ (pendingState 0).EngineTurn ∧
    (∀ i ∈ [Instr.generate, .set, .get, .matchPrefix, .encode, .decode, .clear], decode 0 ≠ .ok i) := by
  decide +kernel

theorem witness_BuiltTableIsPrefixFree : (buildTable aaabbc).lookup 0x61 = some [false] := by decide +kernel

theorem witness_FrequentSymbolsGetShortCodes :
    (buildTable aaabbc).lookup 0x61 = some (bits [0]) ∧ (buildTable aaabbc).lookup 0x63 = some (bits [1, 0]) ∧
    aaabbc.count 0x63 < aaabbc.count 0x61 := by decide +kernel

theorem witness_MergeOrderIsTheReference : 2 ≤ (leafSymbols [0x61, 0x62]).length := by decide +kernel

theorem witness_WalkAssignsRootPaths :
    (Machine.Tree.node 3 (.leaf 0x61 1) (.leaf 0x62 2)).symbols.Nodup := by decide

theorem witness_OnlySymbolGetsZero :
    ([0x61, 0x61] : List Byte) ≠ [] ∧ ∀ b ∈ ([0x61, 0x61] : List Byte), b = (0x61 : Symbol) := by decide

/-- The empty table is bookkept. -/
theorem empty_bookkept : emptyTable.Bookkept where
  count_eq := by decide +kernel
  empty_min := by decide
  min_le := by intro s c h; simp at h
  le_max := by intro s c h; simp at h
  min_mem := by intro h; exact absurd rfl h
  max_mem := by intro h; exact absurd rfl h

/-- A state with the invariant: the reset state with other operands, memory, pending command and coming inputs. -/
theorem invariant_of (m : Memory) (hm : Memory.wf Config.reference m = true) (a l d c : Word) (p : Option Word)
    (is : List Input) :
    Invariant { State.reset with mem := m, srcAddr := a, srcLen := l, dstAddr := d, dstCap := c, pending := p
                                 inputs := is } where
  params := (by decide : Config.reference.wf = true)
  memory := hm
  bookkept := empty_bookkept
  codesLegal := by intro s c h; simp [State.reset] at h
  absent := by intro _ y; simp [State.reset]
  busyNew := fun _ => rfl
  cleared := fun _ => ⟨rfl, rfl, rfl, rfl, rfl⟩
  errFlag := by simp [State.reset]
  errRange := by simp [State.reset]
  errResults := by simp [State.reset]
  fresh := by simp [State.reset]
  underReset := by intro h; simp [State.reset] at h

/-- A table of one symbol is bookkept and has no code for another. -/
theorem one_bookkept : (emptyTable.register 0x61 [false]).Bookkept where
  count_eq := by decide +kernel
  empty_min := by intro h; exact absurd h (by decide)
  min_le := by
    intro s c h
    rw [lookup_register] at h
    split at h
    · cases h; decide
    · simp at h
  le_max := by
    intro s c h
    rw [lookup_register] at h
    split at h
    · cases h; decide
    · simp at h
  min_mem := fun _ => ⟨0x61, [false], by decide +kernel, by decide⟩
  max_mem := fun _ => ⟨0x61, [false], by decide +kernel, by decide⟩

theorem witness_RegisterKeepsBookkeeping :
    (emptyTable.register 0x61 [false]).Bookkept ∧ (emptyTable.register 0x61 [false]).lookup 0x62 = none :=
  ⟨one_bookkept, by decide +kernel⟩

/-- Both clauses, at the end of DMEM. -/
theorem witness_GenerateBuildsTable :
    InRange Config.reference 0xFFFF 1 ∧ ¬ InRange Config.reference 0xFFFF 2 := by decide +kernel

theorem witness_GenerateOfNothingIsEmpty : ({ State.reset with srcAddr := 0xFFFFFFFF } : State).srcLen = 0 := by decide

/-- Values of the shortest and the longest legal length. -/
theorem witness_SetRegistersSymbol :
    let s := withValue [0x31] (onBytes [0x61] 0)
    let l := withValue (List.replicate 256 0x30) (onBytes [0x61] 0)
    (InRange s.params s.srcAddr s.srcLen ∧ InRange s.params s.valAddr s.valLen ∧ s.srcLen = 1 ∧
      s.table.lookup (s.readByte s.srcAddr.toNat) = none ∧ 1 ≤ s.valLen.toNat ∧ s.valLen.toNat ≤ s.params.codeLenMax ∧
      ∀ i < s.valLen.toNat, s.readByte (s.valAddr.toNat + i) = 0x30 ∨ s.readByte (s.valAddr.toNat + i) = 0x31) ∧
    (InRange l.params l.valAddr l.valLen ∧ l.valLen.toNat = l.params.codeLenMax ∧
      ∀ i < l.valLen.toNat, l.readByte (l.valAddr.toNat + i) = 0x30 ∨ l.readByte (l.valAddr.toNat + i) = 0x31) := by
  decide +kernel

/-- V21, V22, V23, V24, V25, V29a and V29c: each clause of the order. -/
theorem witness_SetErrorOrder :
    (after .set (withValue [0x30, 0x31] (onBytes [0x61, 0x62] 0))).errCode = 1 ∧
    (after .set (withValue [0x30, 0x31] (withTable abcTable (onBytes [0x61] 0)))).errCode = 2 ∧
    (after .set (withValue [0x30, 0x31, 0x32] (onBytes [0x61] 0))).errCode = 3 ∧
    (after .set (withValue [] (onBytes [0x61] 0))).errCode = 3 ∧
    (after .set (withValue (List.replicate 257 0x30) (onBytes [0x61] 0))).errCode = 3 ∧
    (after .set (withValue [0x31] (onBytes [] 0))).errCode = 1 ∧
    (after .set { onBytes [0x61, 0x62] 0 with valAddr := 0xFFFF, valLen := 2 }).errCode = 7 := by decide +kernel

/-- A code that exactly fills the destination. -/
theorem witness_GetWritesCodeCharacters :
    let s := withTable abcTable (onBytes [0x62] 2)
    s.RangesPass ∧ s.srcLen = 1 ∧ s.table.lookup (s.readByte s.srcAddr.toNat) = some (bits [1, 1]) ∧
    (bits [1, 1]).length ≤ s.dstCap.toNat := by decide +kernel

/-- V46, V47, V48, V49: each clause of the order, and an absent table in a state with the invariant. -/
theorem witness_GetErrorOrder :
    (Invariant (onBytes [0x7A] 8) ∧ (onBytes [0x7A] 8).tblPresent = false ∧ (onBytes [0x7A] 8).RangesPass ∧
      (onBytes [0x7A] 8).srcLen = 1) ∧
    (after .get (onBytes [0x7A] 8)).errCode = 4 ∧
    (after .get (withTable abcTable (onBytes [0x61, 0x62] 8))).errCode = 1 ∧
    (after .get (withTable abcTable (onBytes [0x62] 1))).errCode = 9 ∧
    (after .get { withTable abcTable (onBytes [0x62] 4) with dstAddr := 0x040 }).errCode = 8 ∧
    (after .get { onBytes [0x62] 4 with dstAddr := 0xFFFD }).errCode = 7 :=
  ⟨⟨invariant_of (cells 0x040 [0x7A]) (by decide +kernel) _ _ _ _ _ _, by decide +kernel⟩, by decide +kernel⟩

theorem witness_MatchIsShortestThenLeast : (emptyTable.register 0x61 [false]).Bookkept := one_bookkept

/-- A match, no match (V31), an absent table (V36), and a range out of DMEM (V39). -/
theorem witness_MatchConsumesTheCode :
    let s := withTable abcTable (onBytes [0x31, 0x31, 0x30] 0)
    let n := withTable abcTable (onBytes [0x31] 0)
    Config.reference.wf = true ∧ InRange s.params s.srcAddr s.srcLen ∧
    (Invariant (onBytes [0x30] 0) ∧ (onBytes [0x30] 0).tblPresent = false) ∧
    s.table.matchPrefix chars s.srcBytes = some (0x62, 2) ∧ n.table.matchPrefix chars n.srcBytes = none ∧
    ¬ InRange Config.reference 0xFFFF 2 :=
  ⟨by decide +kernel, by decide +kernel,
    ⟨invariant_of (cells 0x040 [0x30]) (by decide +kernel) _ _ _ _ _ _, by decide +kernel⟩, by decide +kernel⟩

theorem witness_EmptyInputIsIdentity :
    (onBytes [] 4).srcLen = 0 ∧ InRange (onBytes [] 4).params (onBytes [] 4).dstAddr (onBytes [] 4).dstCap := by decide +kernel

/-- V57 (a table built here, output that exactly fills DST_CAP) and V54 (a present table). -/
theorem witness_EncodeWritesFramedStream :
    let s := onBytes aaabbc 2
    let p := withTable abcTable (onBytes [0x62, 0x62, 0x63, 0x61] 2)
    (s.RangesPass ∧ s.srcLen ≠ 0 ∧ (∀ b ∈ s.srcBytes, s.encodeTable.lookup b ≠ none) ∧
      ((s.encodeTable.codesOf s.srcBytes).length + 2 + 7) / 8 ≤ s.dstCap.toNat) ∧
    (p.RangesPass ∧ p.srcLen ≠ 0 ∧ (∀ b ∈ p.srcBytes, p.encodeTable.lookup b ≠ none) ∧
      ((p.encodeTable.codesOf p.srcBytes).length + 2 + 7) / 8 ≤ p.dstCap.toNat) := by decide +kernel

/-- V55, V56, V59, V86: each clause of the order. -/
theorem witness_EncodeErrorOrder :
    (after .encode (withTable abcTable (onBytes [0x61, 0x62, 0x64] 16))).errCode = 4 ∧
    (after .encode (onBytes aaabbc 1)).errCode = 9 ∧
    (after .encode (withTable emptyTable (onBytes [0x61] 16))).errCode = 4 ∧
    (after .encode { onBytes aaabbc 16 with srcAddr := 0xFFF0, srcLen := 0x20, dstAddr := 0xFFF0 }).errCode = 7 ∧
    (after .encode { onBytes aaabbc 16 with dstAddr := 0x045 }).errCode = 8 ∧
    (after .encode (onBytes [] 0)).errCode = 0 := by decide +kernel

/-- One byte and several, with and without 0 bits before the first sentinel. -/
theorem witness_StripFindsTheSentinels :
    strip [0xC0] = .ok [] ∧ strip [0x01, 0x80] = .ok [] ∧ strip [0x98] = .ok (bits [0, 0, 1]) ∧
    strip [0x01] = .error .corruptStream ∧ strip [0x80, 0x00] = .error .corruptStream := by decide +kernel

theorem witness_DecodeLoopConsumesTheBuffer :
    decodeLoop abcTable 2 (bits [0, 0]) = .ok [0x61, 0x61] ∧
    decodeLoop abcTable 1 (bits [0, 0]) = .error .capacityExceeded ∧
    decodeLoop abcTable 2 (bits [0, 0, 1]) = .error .corruptStream := by decide +kernel

/-- Each clause of DecodeOfAnyTable, on raw 98 (V70, V71) and C0 (V64). -/
theorem witness_DecodeOfAnyTable :
    let s := withTable abcTable (onBytes [0x98] 2)
    s.RangesPass ∧ s.srcLen ≠ 0 ∧ strip s.srcBytes = .ok (bits [0, 0, 1]) ∧
    Consumes s.table (bits [0, 0, 1]) [0x61, 0x61] (bits [1]) ∧ s.table.matchPrefix id (bits [1]) = none ∧
    Consumes s.table (bits [0, 0, 1]) [0x61] (bits [0, 1]) ∧ s.table.matchPrefix id (bits [0, 1]) ≠ none ∧
    strip [0xC0] = .ok [] ∧ Consumes s.table [] [] [] := by
  have h1 : abcTable.matchPrefix id (bits [0, 0, 1]) = some (0x61, 1) := by decide +kernel
  have h2 : abcTable.matchPrefix id (bits [0, 1]) = some (0x61, 1) := by decide +kernel
  have d1 : (bits [0, 0, 1]).drop 1 = bits [0, 1] := by decide
  have d2 : (bits [0, 1]).drop 1 = bits [1] := by decide
  refine ⟨by decide +kernel, by decide +kernel, by decide +kernel, ?_, by decide +kernel, ?_, by decide +kernel,
    by decide +kernel, .done _⟩
  · exact .symbol (by decide) h1 (by rw [d1]; exact .symbol (by decide) h2 (by rw [d2]; exact .done _))
  · exact .symbol (by decide) h1 (by rw [d1]; exact .done _)

/-- The table of one symbol decodes. -/
theorem one_decodes : (emptyTable.register 0x61 [false]).Decodes where
  bookkept := one_bookkept
  nonempty := by
    intro s h
    rw [lookup_register] at h
    split at h <;> simp at h
  prefixFree := by
    intro a b ca cb ha hb _
    rw [lookup_register] at ha hb
    split at ha
    · split at hb
      · simp_all
      · simp at hb
    · simp at ha

/-- Raw 21: two 0 bits, a sentinel, the codes of "aaaa", a sentinel, no 0 bit after it. -/
theorem witness_DecodeWritesSymbols :
    let s := withTable (emptyTable.register 0x61 [false]) (onBytes [0x21] 4)
    s.RangesPass ∧ s.srcLen ≠ 0 ∧ s.table.Decodes ∧ (∀ y ∈ [0x61, 0x61, 0x61, 0x61], s.table.lookup y ≠ none) ∧
    ([0x61, 0x61, 0x61, 0x61] : List Symbol).length ≤ s.dstCap.toNat ∧
    s.srcBytes.flatMap (fun b => (List.range 8).map (fun i => b.getLsbD (7 - i))) =
      List.replicate 2 false ++ [true] ++ s.table.codesOf [0x61, 0x61, 0x61, 0x61] ++ [true] ++ List.replicate 0 false :=
  ⟨by decide +kernel, by decide +kernel, one_decodes, by decide +kernel, by decide +kernel, by decide +kernel⟩

/-- V62, V63, V65, V66, V78, V79 and the operand checks; an absent table in a state with the invariant. -/
theorem witness_DecodeErrorOrder :
    (let s := onBytes [0xB0] 64
     Invariant s ∧ s.tblPresent = false ∧ s.RangesPass ∧ s.srcLen ≠ 0 ∧ strip s.srcBytes = .ok (bits [0, 1])) ∧
    strip [0x80] = .error .corruptStream ∧ strip [0x01] = .error .corruptStream ∧
    (onBytes [0x80] 64).srcBytes = [BitVec.ofNat 8 (2 ^ 7)] ∧ (onBytes [0x01] 64).srcBytes = [BitVec.ofNat 8 (2 ^ 0)] ∧
    (after .decode (withTable abcTable (onBytes [0x80] 64))).errCode = 5 ∧
    (after .decode (withTable abcTable (onBytes [0x01] 64))).errCode = 5 ∧
    (after .decode (withTable abcTable (onBytes [0x00] 64))).errCode = 5 ∧
    (after .decode (withTable abcTable (onBytes [0x80, 0x00] 64))).errCode = 5 ∧
    (after .decode (onBytes [0xB0] 64)).errCode = 5 ∧ (after .decode (onBytes [0xC0] 64)).errCode = 0 ∧
    (after .decode { onBytes [0xC0] 4 with dstAddr := 0x040 }).errCode = 8 ∧
    (after .decode { onBytes [0xC0] 4 with dstAddr := 0xFFFD }).errCode = 7 :=
  ⟨⟨invariant_of (cells 0x040 [0xB0]) (by decide +kernel) _ _ _ _ _ _, by decide +kernel⟩, by decide +kernel⟩

/-- The state in which DECODE reads what an ENCODE wrote to 0x400. -/
def readBack (t : State) (cap : Word) : State :=
  { t with srcAddr := 0x400, srcLen := t.outLen, dstAddr := 0x200, dstCap := cap }

/-- An absent table, and the table of the source, both with capacities that are exactly enough. -/
theorem witness_EncodeThenDecodeIsIdentity :
    let s := onBytes aaabbc 2
    let u := readBack (after .encode s) 6
    (s.RangesPass ∧ s.srcLen ≠ 0 ∧ s.tblPresent = false ∧
      (((buildTable s.srcBytes).codesOf s.srcBytes).length + 2 + 7) / 8 ≤ s.dstCap.toNat) ∧
    (u.RangesPass ∧ u.table = (after .encode s).table ∧
      u.srcBytes = (after .encode s).memRead s.dstAddr.toNat (after .encode s).outLen.toNat ∧
      s.srcLen.toNat ≤ u.dstCap.toNat) ∧
    (withTable (buildTable aaabbc) s).table = buildTable (withTable (buildTable aaabbc) s).srcBytes :=
  ⟨by decide +kernel, ⟨by decide +kernel, rfl, by decide +kernel, by decide +kernel⟩,
    (show buildTable aaabbc = buildTable (onBytes aaabbc 2).srcBytes from congrArg buildTable (by decide +kernel))⟩

/-- A source with symbols of `s1` only (V54), and one with another symbol (V55). -/
theorem witness_SharedTableRoundTrip :
    let s := withTable (buildTable aaabbc) (onBytes [0x62, 0x62, 0x63, 0x61] 2)
    let u := readBack (after .encode s) 4
    let n := withTable (buildTable aaabbc) (onBytes [0x61, 0x62, 0x64] 2)
    (s.RangesPass ∧ s.srcLen ≠ 0 ∧ s.tblPresent = true ∧ s.table = buildTable aaabbc ∧ (∀ b ∈ s.srcBytes, b ∈ aaabbc) ∧
      ((s.table.codesOf s.srcBytes).length + 2 + 7) / 8 ≤ s.dstCap.toNat) ∧
    (u.RangesPass ∧ u.table = (after .encode s).table ∧
      u.srcBytes = (after .encode s).memRead s.dstAddr.toNat (after .encode s).outLen.toNat ∧
      s.srcLen.toNat ≤ u.dstCap.toNat) ∧
    (n.RangesPass ∧ n.srcLen ≠ 0 ∧ n.tblPresent = true ∧ n.table = buildTable aaabbc ∧ ∃ b ∈ n.srcBytes, b ∉ aaabbc) :=
  ⟨⟨by decide +kernel, by decide +kernel, rfl, rfl, by decide +kernel, by decide +kernel⟩,
    ⟨by decide +kernel, rfl, by decide +kernel, by decide +kernel⟩,
    ⟨by decide +kernel, by decide +kernel, rfl, rfl, by decide +kernel⟩⟩

/-- GET inside and outside its destination, GENERATE outside the three commands. -/
theorem witness_EngineWritesOnlyDestination :
    exec .get (withTable abcTable (onBytes [0x62] 2)) = .next (after .get (withTable abcTable (onBytes [0x62] 2))) ∧
    ¬ (withTable abcTable (onBytes [0x62] 2)).InDst 0x402 ∧ Instr.generate ∉ [Instr.get, .encode, .decode] :=
  ⟨exec_after _ _, by decide +kernel, by decide⟩

theorem witness_EngineKeepsOtherRegisters :
    exec .encode (onBytes aaabbc 2) = .next (after .encode (onBytes aaabbc 2)) ∧
    ¬ (Instr.encode = .matchPrefix ∧ (after .encode (onBytes aaabbc 2)).matched = true) :=
  ⟨exec_after _ _, by decide +kernel⟩

/-- Each clause: an error, GET, MATCH that found a symbol on RES_SYM 0. -/
theorem witness_ResultRegistersAfterCommand :
    (after .get (onBytes [0x7A] 8)).errCode ≠ 0 ∧
    (after .get (withTable abcTable (onBytes [0x62] 2))).outLen = 2 ∧
    (withTable abcTable (onBytes [0x30] 0)).resSym = 0 ∧
    (after .matchPrefix (withTable abcTable (onBytes [0x30] 0))).resSym ≠ 0 := by decide +kernel

/-- Each clause: a GENERATE makes the table present, a CLEAR makes it absent, both change it. -/
theorem witness_OnlyTableCommandsChangeTable :
    let g : State := { onBytes aaabbc 0 with pending := some 1 }
    let c : State := { withTable abcTable State.reset with pending := some 7 }
    (goesOn g = true ∧ g.tblPresent = false ∧ (stepped g).tblPresent = true ∧ (stepped g).table ≠ g.table) ∧
    (goesOn c = true ∧ c.tblPresent = true ∧ (stepped c).tblPresent = false ∧ (stepped c).table ≠ c.table) :=
  ⟨⟨by decide +kernel, rfl, by decide +kernel, fun h => absurd (congrArg CodeTable.count h) (by decide +kernel)⟩,
    ⟨by decide +kernel, rfl, by decide +kernel, fun h => absurd (congrArg CodeTable.count h) (by decide +kernel)⟩⟩

/-- Each clause changes its register: a host write to each of the six. -/
theorem witness_OnlyHostAndMatchChangeOperands :
    (goesOn (idleHost (.write 0x014 (.w32 1))) = true ∧ (stepped (idleHost (.write 0x014 (.w32 1)))).srcAddr ≠ 0) ∧
    (goesOn (idleHost (.write 0x018 (.w32 1))) = true ∧ (stepped (idleHost (.write 0x018 (.w32 1)))).srcLen ≠ 0) ∧
    (goesOn (idleHost (.write 0x01C (.w32 1))) = true ∧ (stepped (idleHost (.write 0x01C (.w32 1)))).dstAddr ≠ 0) ∧
    (goesOn (idleHost (.write 0x020 (.w32 1))) = true ∧ (stepped (idleHost (.write 0x020 (.w32 1)))).dstCap ≠ 0) ∧
    (goesOn (idleHost (.write 0x024 (.w32 1))) = true ∧ (stepped (idleHost (.write 0x024 (.w32 1)))).valAddr ≠ 0) ∧
    (goesOn (idleHost (.write 0x028 (.w32 1))) = true ∧ (stepped (idleHost (.write 0x028 (.w32 1)))).valLen ≠ 0) := by
  decide +kernel

theorem witness_DmemByteIsStable :
    let s : State := { onBytes [0x61] 0 with inputs := [.host (.write 0x01000040 (.w8 0x62))] }
    goesOn s = true ∧ (stepped s).readByte 0x040 ≠ s.readByte 0x040 := by decide +kernel

theorem witness_StepKeepsInvariant :
    Invariant { State.reset with pending := some 1 } ∧ goesOn { State.reset with pending := some 1 } = true :=
  ⟨invariant_of [] rfl 0 0 0 0 (some 1) [], by decide +kernel⟩

/-- An assertion with a command pending, and a release from the reset state. -/
theorem witness_ResetTakesTheResetState :
    let s : State := { State.reset with rst := true, inputs := [.rstRelease] }
    ({ pendingState 1 with inputs := [.rstAssert] } : State).inputs = .rstAssert :: [] ∧
    s.inputs = .rstRelease :: [] ∧ s.rst = true ∧ s.AtReset ∧ goesOn s = true := by
  refine ⟨by decide, by decide, by decide, ⟨by decide, by decide, by decide, by decide, ?_, by decide, by decide⟩, by decide +kernel⟩
  intro y
  exact lookup_emptyTable y

/-- A release with `rst` low and a command pending. -/
theorem witness_ReleaseChangesOnlyTheLevel :
    ({ pendingState 1 with inputs := [.rstRelease] } : State).inputs = .rstRelease :: [] := by decide

theorem witness_ResetLeavesDmemUnspecified : ({ pendingState 1 with inputs := [.rstAssert] } : State).Resets := by decide

theorem witness_HostUnderResetHasNoStep :
    ({ idleHost (.read 0x000 .b4) with rst := true } : State).rst = true ∧
    ({ idleHost (.read 0x000 .b4) with rst := true } : State).Hosts (.read 0x000 .b4) := by decide

theorem witness_IdAndCfgAreConstant :
    (busyHost (.read 0x000 .b4)).rst = false ∧ (busyHost (.read 0x000 .b4)).inputs = .host (.read 0x000 .b4) :: [] ∧
    (idleHost (.read 0x004 .b4)).inputs = .host (.read 0x004 .b4) :: [] ∧ (idleHost (.read 0x004 .b4)).params.wf = true ∧
    goesOn (idleHost (.read 0x004 .b4)) = true := by decide +kernel

theorem witness_StatusReadsItsFields :
    (idleHost (.read 0x00C .b4)).rst = false ∧ (idleHost (.read 0x00C .b4)).pending = none ∧
    (idleHost (.read 0x00C .b4)).inputs = .host (.read 0x00C .b4) :: [] := by decide

/-- Whichever register is read, in a state with the invariant. -/
theorem witness_ResultRegistersRead :
    ∀ off : Word, (idleHost (.read off .b4)).rst = false ∧ (idleHost (.read off .b4)).pending = none ∧
      (idleHost (.read off .b4)).inputs = .host (.read off .b4) :: [] ∧ Invariant (idleHost (.read off .b4)) :=
  fun _ => ⟨rfl, rfl, rfl, invariant_of [] rfl _ _ _ _ _ _⟩

/-- The first and the last operand register, idle and busy. -/
theorem witness_OperandRegistersReadBack :
    let s (p : Option Word) (off : Word) : State :=
      { State.reset with pending := p, inputs := [.host (.write off (.w32 0xFFFFFFFF)), .host (.read off .b4)] }
    ((idleHost (.read 0x014 .b4)).rst = false ∧ (idleHost (.read 0x014 .b4)).inputs = .host (.read 0x014 .b4) :: []) ∧
    (0x014 : Word) ∈ operandOffsets ∧ (0x028 : Word) ∈ operandOffsets ∧ (s none 0x014).rst = false ∧
    (s none 0x014).busy = false ∧ (s (some 1) 0x028).busy = true := by decide

/-- The first and the last reserved offset, and a write to the first and the last read-only register. -/
theorem witness_ReservedOffsetsReadZero :
    ([(0x048 : Word), 0x0FC].all fun off =>
      decide (0x048 ≤ off.toNat ∧ off.toNat ≤ 0x0FC ∧ off.toNat % 4 = 0)) = true ∧
    (idleHost (.read 0x048 .b4)).rst = false ∧
    (idleHost (.write 0x000 (.w32 1))).inputs = .host (.write 0x000 (.w32 1)) :: [] ∧
    (idleHost (.write 0x03C (.w32 1))).inputs = .host (.write 0x03C (.w32 1)) :: [] ∧
    (idleHost (.write 0x0FC (.w32 1))).inputs = .host (.write 0x0FC (.w32 1)) :: [] ∧
    (idleHost (.read 0x008 .b4)).inputs = .host (.read 0x008 .b4) :: [] := by decide

/-- R62, R65, R66 at their boundaries. -/
theorem witness_BadAccessHasNoEffect :
    (idleHost (.read 0x0FC .b4)).rst = false ∧
    ¬ BadAccess Config.reference 0x0FC .b4 ∧ BadAccess Config.reference 0x0FC .b2 ∧
    BadAccess Config.reference 0x0FE .b4 ∧ BadAccess Config.reference 0x100 .b4 ∧
    BadAccess Config.reference 0x00FFFFFF .b1 ∧ ¬ BadAccess Config.reference 0x01000000 .b4 ∧
    BadAccess Config.reference 0x01000001 .b2 ∧ ¬ BadAccess Config.reference 0x0100FFFF .b1 ∧
    BadAccess Config.reference 0x01010000 .b1 ∧ BadAccess Config.reference 0xFFFFFFFF .b1 := by
  refine ⟨?_, ?_, ?_, ?_, ?_, ?_, ?_, ?_, ?_, ?_, ?_⟩ <;> decide +kernel

/-- The first and the last word of DMEM, and a misaligned access. -/
theorem witness_DmemIsLittleEndian :
    (idleHost (.read 0x01000000 .b4)).rst = false ∧ (idleHost (.read 0x01000000 .b4)).busy = false ∧
    (idleHost (.read 0x01000000 .b4)).params.wf = true ∧
    (0x01000000 : Word).toNat = 0x01000000 + 0 ∧ (0x0100FFFC : Word).toNat = 0x01000000 + 0xFFFC ∧
    0xFFFC < 2 ^ Config.reference.dmemLog2 ∧ (0x0100FFFC : Word).toNat % sizeBytes .b4 = 0 ∧
    (0x0100FFFE : Word).toNat = 0x01000000 + 0xFFFE ∧ (0x0100FFFE : Word).toNat % sizeBytes .b4 ≠ 0 := by decide +kernel

theorem witness_WritesWhileBusy :
    (busyHost (.write 0x008 (.w32 7))).rst = false ∧ (busyHost (.write 0x008 (.w32 7))).busy = true ∧
    ([(0x000 : Word), 0x014, 0x0FC].all fun off =>
      decide (off.toNat < 0x100 ∧ off.toNat % 4 = 0 ∧ off ∉ [(0x008 : Word), 0x040, 0x044])) = true ∧
    0x100 ≤ (0x01000000 : Word).toNat ∧ ¬ BadAccess Config.reference 0x01000000 (datumSize (.w8 1)) := by decide +kernel

theorem witness_ReadsWhileBusy :
    (busyHost (.read 0x00C .b4)).rst = false ∧ (busyHost (.read 0x00C .b4)).busy = true ∧
    (busyHost (.read 0x00C .b4)).inputs = .host (.read 0x00C .b4) :: [] ∧
    0x048 ≤ (0x048 : Word).toNat ∧ (0x0FC : Word).toNat < 0x100 ∧ (0x0FC : Word).toNat % 4 = 0 ∧
    0x100 ≤ (0x01000000 : Word).toNat ∧ ¬ BadAccess Config.reference 0x01000000 .b4 := by decide +kernel

theorem witness_InterruptPendsAndClears :
    (pendingState 8).pending.isSome = true ∧ (pendingState 8).EngineTurn ∧ goesOn (pendingState 8) = true ∧
    (busyHost (.write 0x044 (.w32 1))).rst = false ∧
    (idleHost (.write 0x040 (.w32 1))).inputs = .host (.write 0x040 (.w32 1)) :: [] := by decide +kernel

end Sys2Proof.Tests
end

/-! ## Register accesses of the host, completion of a command, the interrupt -/

namespace Sys2Proof.Machine

/-! ### Register accesses -/

/-- A 4-byte access at a multiple of 4 below 0x100 names a register (R62, R65). -/
theorem target_reg (p : Params) {off : Word} (hlt : off.toNat < 0x100) (hal : off.toNat % 4 = 0) :
    target p off .b4 = .reg (regAt off.toNat) := by
  simp [target, hlt, hal]

@[simp] theorem regValue_setInputs (s : State) (l : List Input) (r : HostReg) :
    (s.setInputs l).regValue r = s.regValue r := by
  cases r <;> rfl

@[simp] theorem busyRegValue_setInputs (s : State) (l : List Input) (r : HostReg) :
    (s.setInputs l).busyRegValue r = s.busyRegValue r := by
  cases r <;> rfl

/-- A register whose value R227 does not leave open reads its true value, busy or not. -/
theorem readReg_of_not_open {s : State} {r : HostReg} (h : s.busyRegValue r = none) :
    s.readReg r = s.respond (.data (.w32 (s.regValue r))) := by
  simp [State.readReg, h]

/-- The step of an aligned register read. -/
theorem step_readReg {s : State} {off : Word} {rest : List Input} (hr : s.rst = false)
    (hi : s.inputs = .host (.read off .b4) :: rest) (hlt : off.toNat < 0x100) (hal : off.toNat % 4 = 0) :
    step s = .next ((s.setInputs rest).readReg (regAt off.toNat)) := by
  rw [step_host hi hr]
  simp [State.hostTxn, State.hostRead, target_reg _ hlt hal]

/-- The step of an aligned read of a register whose value R227 does not leave open, busy or not. -/
theorem step_readReg_of_not_open {s : State} {off : Word} {rest : List Input} (hr : s.rst = false)
    (hi : s.inputs = .host (.read off .b4) :: rest) (hlt : off.toNat < 0x100) (hal : off.toNat % 4 = 0)
    (hopen : s.busyRegValue (regAt off.toNat) = none) :
    step s = .next { s with inputs := rest, response := some (.data (.w32 (s.regValue (regAt off.toNat)))) } := by
  rw [step_readReg hr hi hlt hal, readReg_of_not_open (by rwa [busyRegValue_setInputs]), regValue_setInputs]
  rfl

/-- The step of an aligned register write. -/
theorem step_writeReg {s : State} {off v : Word} {rest : List Input} (hr : s.rst = false)
    (hi : s.inputs = .host (.write off (.w32 v)) :: rest) (hlt : off.toNat < 0x100) (hal : off.toNat % 4 = 0) :
    step s = .next (((s.setInputs rest).putReg (regAt off.toNat) v).respond .done) := by
  rw [step_host hi hr]
  simp [State.hostTxn, State.hostWrite, datumSize, target_reg _ hlt hal]

/-- Bit [0] of a register write, as the parity of the value. -/
theorem getLsbD_zero_eq_decide_odd (v : Word) : v.getLsbD 0 = decide (v.toNat % 2 = 1) := by
  simp [BitVec.getLsbD, Nat.testBit_zero]

/-- INT_EN takes bit [0] of a write (R34). -/
theorem putReg_intEn (s : State) (v : Word) :
    s.putReg .intEn v = { s with intEn := decide (v.toNat % 2 = 1) } := by
  rw [← getLsbD_zero_eq_decide_odd]
  rfl

/-- INT_PEND is cleared by a write whose bit [0] is 1 (R35). -/
theorem putReg_intPend (s : State) (v : Word) :
    s.putReg .intPend v = { s with intPend := if v.toNat % 2 = 1 then false else s.intPend } := by
  simp only [State.putReg, getLsbD_zero_eq_decide_odd, decide_eq_true_eq]
  split <;> rfl

theorem params_wf_iff (p : Params) :
    p.wf = true ↔ 10 ≤ p.dmemLog2 ∧ p.dmemLog2 ≤ 24 ∧ 255 ≤ p.codeLenMax ∧ p.codeLenMax ≤ 65535 :=
  decide_eq_true_iff

/-- CFG as a number: with legal parameters the two fields do not truncate them (R24). -/
theorem toNat_cfgWord {p : Params} (h : p.wf = true) : (cfgWord p).toNat = p.codeLenMax * 2 ^ 5 + p.dmemLog2 := by
  obtain ⟨-, hlog, -, hmax⟩ := (params_wf_iff p).1 h
  have hlow : p.dmemLog2 % 2 ^ 5 = p.dmemLog2 := Nat.mod_eq_of_lt (by omega)
  have hmid : p.codeLenMax % 2 ^ 16 = p.codeLenMax := Nat.mod_eq_of_lt (by omega)
  simp only [cfgWord, BitVec.toNat_append, BitVec.ofNat_eq_ofNat, BitVec.toNat_ofNat, Nat.zero_mod, Nat.zero_shiftLeft,
    Nat.zero_or, hlow, hmid]
  rw [← Nat.shiftLeft_add_eq_or_of_lt (by omega), Nat.shiftLeft_eq]

/-! ### What a host transaction leaves unchanged -/

theorem readReg_params (s : State) (r : HostReg) : (s.readReg r).params = s.params := by
  unfold State.readReg
  repeat' split
  all_goals rfl

theorem putReg_params (s : State) (r : HostReg) (v : Word) : (s.putReg r v).params = s.params := by
  unfold State.putReg
  repeat' split
  all_goals rfl

theorem hostRead_params (s : State) (off : Word) (z : Size) : (s.hostRead off z).params = s.params := by
  unfold State.hostRead
  split
  · exact readReg_params ..
  · split <;> rfl
  · rfl

theorem hostWrite_params (s : State) (off : Word) (d : Datum) : (s.hostWrite off d).params = s.params := by
  unfold State.hostWrite
  split
  · exact putReg_params ..
  · split <;> rfl
  · rfl

@[simp] theorem hostTxn_params (s : State) (x : Txn) : (s.hostTxn x).params = s.params := by
  cases x with
  | read off z => exact hostRead_params ..
  | write off d => exact hostWrite_params ..

/-! ### Completion -/

/-- `t` is `s` after the completion of a command: the record of R191, and the fields that no command writes. -/
structure Completed (s t : State) : Prop where
  pending  : t.pending = none
  done     : t.done = true
  intPend  : t.intPend = true
  params   : t.params = s.params
  dstAddr  : t.dstAddr = s.dstAddr
  dstCap   : t.dstCap = s.dstCap
  valAddr  : t.valAddr = s.valAddr
  valLen   : t.valLen = s.valLen
  dropped  : t.dropped = s.dropped
  intEn    : t.intEn = s.intEn
  rst      : t.rst = s.rst
  inputs   : t.inputs = s.inputs
  response : t.response = s.response
  dmemDraw : t.dmemDraw = s.dmemDraw

/-- An error raised at once completes the command. -/
theorem completed_raise (s : State) (e : CmdError) : Completed s (s.raise e) := by
  constructor <;> rfl

/-- The end of a command that writes OUT_LEN only is a completion. -/
theorem completed_succeed (s : State) (n : Nat) : Completed s (s.succeed n) := by
  constructor <;> rfl

/-- Every command ends in a completion (R191). -/
theorem exec_completed {i : Instr} {s t : State} (h : exec i s = .next t) : Completed s t := by
  cases i with
  | generate =>
    obtain ⟨-, rfl⟩ | ⟨-, rfl⟩ := execGenerate_cases h
    · constructor <;> rfl
    · exact completed_raise ..
  | set =>
    obtain ⟨_, -, rfl⟩ | ⟨-, rfl⟩ := execSet_cases h
    · exact completed_raise ..
    · constructor <;> rfl
  | get =>
    obtain ⟨_, -, rfl⟩ | ⟨_, -, rfl⟩ := execGet_cases h
    · exact completed_raise ..
    · constructor <;> rfl
  | matchPrefix =>
    obtain ⟨-, rfl⟩ | ⟨-, -, rfl⟩ | ⟨_, _, -, -, rfl⟩ := execMatchPrefix_cases h
    · exact completed_raise ..
    · constructor <;> rfl
    · constructor <;> rfl
  | encode =>
    obtain ⟨_, -, rfl⟩ | ⟨-, -, rfl⟩ | ⟨-, -, -, rfl⟩ | ⟨_, -, -, -, -, rfl⟩ | ⟨_, -, -, -, -, rfl⟩ :=
      execEncode_cases h
    · exact completed_raise ..
    · exact completed_succeed ..
    all_goals constructor <;> simp
  | decode =>
    obtain ⟨_, -, rfl⟩ | ⟨-, -, rfl⟩ | ⟨_, -, -, -, rfl⟩ | ⟨_, -, -, -, rfl⟩ := execDecode_cases h
    · exact completed_raise ..
    · exact completed_succeed ..
    · constructor <;> rfl
    · constructor <;> rfl
  | clear =>
    obtain rfl := execClear_cases h
    constructor <;> rfl

/-- A step of the engine with a command pending completes it, an illegal word included (R191, R195). -/
theorem engineStep_completed {s t : State} (hp : s.pending.isSome) (h : engineStep s = .next t) : Completed s t := by
  obtain ⟨hn, -⟩ | ⟨_, _, -, -, he⟩ | ⟨_, _, -, -, rfl⟩ := engineStep_cases h
  · simp [hn] at hp
  · exact exec_completed he
  · exact completed_raise ..

theorem engineStep_params {s t : State} (h : engineStep s = .next t) : t.params = s.params := by
  obtain ⟨-, rfl⟩ | ⟨_, _, hp, -, -⟩ | ⟨_, _, hp, -, -⟩ := engineStep_cases h
  · rfl
  all_goals exact (engineStep_completed (by simp [hp]) h).params

/-- The engine's turn, leading the list or the list being empty, is a step of the engine. -/
theorem step_engineTurn {s : State} (h : s.EngineTurn) : step s = engineStep (s.setInputs s.inputs.tail) := by
  obtain hi | hi := h
  · have hs : s.setInputs s.inputs.tail = s := by
      cases s; simp_all [State.setInputs]
    rw [hs, step_nil hi]
  · obtain ⟨rest, hi⟩ := List.head?_eq_some_iff.1 hi
    rw [hi, step_engine hi, List.tail_cons]

/-- No step changes the parameters. -/
theorem step_params {s t : State} (h : step s = .next t) : t.params = s.params := by
  obtain ⟨-, he⟩ | ⟨_, -, he⟩ | ⟨_, _, -, -, rfl⟩ | ⟨_, -, rfl⟩ | ⟨_, -, rfl⟩ := step_cases h
  · exact engineStep_params he
  · exact (engineStep_params he).trans (setInputs_params ..)
  all_goals simp

/-! ### The obligations -/

/-- Settles O49: ID and CFG are not among the registers R227 leaves open, so a read returns their value busy or not;
CFG's fields are read off its value as a number, and the parameters are in the frame of every step. -/
theorem idAndCfgAreConstant : Obligations.IdAndCfgAreConstant := by
  unfold Obligations.IdAndCfgAreConstant
  refine ⟨fun s rest hr => ⟨fun hi => ?_, fun hi hwf => ⟨cfgWord s.params, ?_, ?_⟩⟩, by decide, fun _ _ => step_params⟩
  · exact step_readReg_of_not_open hr hi (by decide) (by decide) rfl
  · exact step_readReg_of_not_open hr hi (by decide) (by decide) rfl
  · obtain ⟨-, hlog, -, hmax⟩ := (params_wf_iff s.params).1 hwf
    rw [toNat_cfgWord hwf]
    omega

/-- Settles O58: the engine's turn completes the pending command, which sets INT_PEND and keeps INT_EN; the two writes
are decided by bit [0] of their value. -/
theorem interruptPendsAndClears : Obligations.InterruptPendsAndClears := by
  unfold Obligations.InterruptPendsAndClears
  refine ⟨fun s => Bool.and_eq_true_iff, fun s t hp hturn h => ?_, fun s v rest hr => ⟨fun hi => ?_, fun hi => ?_⟩,
    rfl, rfl⟩
  · rw [step_engineTurn hturn] at h
    have hc := engineStep_completed (by simpa using hp) h
    exact ⟨hc.intPend, hc.intEn⟩
  · rw [step_writeReg hr hi (by decide) (by decide), show regAt (0x044 : Word).toNat = .intPend from rfl,
      putReg_intPend]
    rfl
  · rw [step_writeReg hr hi (by decide) (by decide), show regAt (0x040 : Word).toNat = .intEn from rfl, putReg_intEn]
    rfl

end Sys2Proof.Machine

/-! ## The DMEM window: alignment, byte order and extent of a host access -/

namespace Sys2Proof.Machine

/-! ### What a DMEM offset names -/

section
variable {p : Params} {off : Word} {loc : Nat} {z : Size}

/-- An aligned access in the DMEM window names its location (R62, R66). -/
theorem target_dmem (hoff : off.toNat = 0x01000000 + loc) (hloc : loc < 2 ^ p.dmemLog2)
    (hal : off.toNat % sizeBytes z = 0) : target p off z = .dmem loc := by
  have hreg : ¬ off.toNat < 0x100 := by omega
  have hwin : dmemBase ≤ off.toNat ∧ off.toNat < dmemBase + dmemSize p := by
    simp only [dmemBase, dmemSize]; omega
  have hsub : off.toNat - dmemBase = loc := by simp only [dmemBase]; omega
  rw [target, if_neg hreg, if_pos hwin, if_pos hal, hsub]

/-- A misaligned access beyond the register window names nothing (R62, R66). -/
theorem target_misaligned (hoff : 0x100 ≤ off.toNat) (hmis : off.toNat % sizeBytes z ≠ 0) :
    target p off z = .unmapped := by
  rw [target, if_neg (Nat.not_lt.2 hoff), if_neg hmis, ite_self]

/-- No aligned access crosses the end of DMEM: its size divides both the window's base and DMEM_SIZE, a multiple of
1024 (R6, R66). -/
theorem aligned_access_le_dmemSize (hwf : p.wf = true) (hoff : off.toNat = 0x01000000 + loc)
    (hloc : loc < 2 ^ p.dmemLog2) (hal : off.toNat % sizeBytes z = 0) : loc + sizeBytes z ≤ 2 ^ p.dmemLog2 := by
  obtain ⟨hlog, -⟩ := (params_wf_iff p).1 hwf
  obtain ⟨m, hm⟩ : 2 ^ 10 ∣ 2 ^ p.dmemLog2 := pow_dvd_pow 2 hlog
  cases z <;> simp only [sizeBytes] at hal ⊢ <;> omega

end

/-! ### Byte order -/

@[simp] theorem datumSize_readDatum (s : State) (loc : Nat) (z : Size) : datumSize (s.readDatum loc z) = z := by
  cases z <;> rfl

/-- A byte put below a bit vector is the low digit in base 256. -/
theorem toNat_append_byte {n : Nat} (x : BitVec n) (b : Byte) : (x ++ b).toNat = x.toNat * 2 ^ 8 + b.toNat := by
  rw [BitVec.toNat_append, ← Nat.shiftLeft_add_eq_or_of_lt b.isLt, Nat.shiftLeft_eq]

/-- A DMEM read is the little-endian sum of its bytes (R66). -/
theorem datumNat_readDatum (s : State) (loc : Nat) (z : Size) :
    datumNat (s.readDatum loc z) =
      ((List.range (sizeBytes z)).map (fun i => (s.readByte (loc + i)).toNat * 2 ^ (8 * i))).sum := by
  cases z <;>
    simp only [State.readDatum, datumNat, sizeBytes, toNat_append_byte, List.range_succ, List.range_zero,
      List.map_append, List.map_cons, List.map_nil, List.sum_append, List.sum_cons, List.sum_nil, Nat.add_zero] <;>
    omega

/-- The bytes a DMEM write stores are the base-256 digits of its data, lowest first (R66). -/
theorem datumBytes_eq_map (d : Datum) :
    datumBytes d =
      (List.range (sizeBytes (datumSize d))).map (fun i => BitVec.ofNat 8 (datumNat d / 2 ^ (8 * i))) := by
  cases d <;>
    simp [datumBytes, datumNat, datumSize, sizeBytes, List.range_succ, BitVec.extractLsb', Nat.shiftRight_eq_div_pow]

@[simp] theorem length_datumBytes (d : Datum) : (datumBytes d).length = sizeBytes (datumSize d) := by
  simp [datumBytes_eq_map]

theorem toNat_getD_datumBytes {d : Datum} {i : Nat} (hi : i < sizeBytes (datumSize d)) :
    ((datumBytes d).getD i 0).toNat = datumNat d / 2 ^ (8 * i) % 256 := by
  simp [datumBytes_eq_map, hi]

/-! ### The steps -/

section
variable {s : State} {off : Word} {rest : List Input} (hr : s.rst = false)
include hr

/-- A read of what names nothing is answered with an error response and has no effect (R63). -/
theorem step_read_unmapped {z : Size} (hi : s.inputs = .host (.read off z) :: rest)
    (ht : target s.params off z = .unmapped) :
    step s = .next { s with inputs := rest, response := some .error } := by
  rw [step_host hi hr]
  simp only [State.hostTxn, State.hostRead, setInputs_params, ht]
  rfl

/-- A write to what names nothing is answered with an error response and has no effect (R63). -/
theorem step_write_unmapped {d : Datum} (hi : s.inputs = .host (.write off d) :: rest)
    (ht : target s.params off (datumSize d) = .unmapped) :
    step s = .next { s with inputs := rest, response := some .error } := by
  rw [step_host hi hr]
  simp only [State.hostTxn, State.hostWrite, setInputs_params, ht]
  rfl

/-- The step of a DMEM read while BUSY = 0. -/
theorem step_readDmem {z : Size} {loc : Nat} (hb : s.busy = false) (hi : s.inputs = .host (.read off z) :: rest)
    (ht : target s.params off z = .dmem loc) :
    step s = .next { s with inputs := rest, response := some (.data (s.readDatum loc z)) } := by
  have hb' : (s.setInputs rest).busy = false := hb
  have hread : (s.setInputs rest).readDatum loc z = s.readDatum loc z := by cases z <;> rfl
  rw [step_host hi hr]
  simp only [State.hostTxn, State.hostRead, setInputs_params, ht, hb', hread]
  rfl

/-- The step of a DMEM write while BUSY = 0. -/
theorem step_writeDmem {d : Datum} {loc : Nat} (hb : s.busy = false) (hi : s.inputs = .host (.write off d) :: rest)
    (ht : target s.params off (datumSize d) = .dmem loc) :
    step s = .next (((s.setMem (Memory.writeBytes s.mem loc (datumBytes d))).setInputs rest).respond .done) := by
  have hb' : (s.setInputs rest).busy = false := hb
  rw [step_host hi hr]
  simp only [State.hostTxn, State.hostWrite, setInputs_params, ht, hb']
  rfl

end

/-! ### The obligation -/

/-- Settles O55: the window's offset names the location `p` when aligned and nothing when not, alignment keeps the
access inside DMEM, and the bytes of the data are its base-256 digits. -/
theorem dmemIsLittleEndian : Obligations.DmemIsLittleEndian := by
  unfold Obligations.DmemIsLittleEndian
  intro s p off size d rest hr hb hwf hoff hp
  refine ⟨fun hi hmis => ?_, fun hi hmis => ?_, fun hi hal => ⟨?_, ?_⟩, fun hi hal => ⟨?_, ?_⟩⟩
  · exact step_read_unmapped hr hi (target_misaligned (by omega) hmis)
  · exact step_write_unmapped hr hi (target_misaligned (by omega) hmis)
  · exact aligned_access_le_dmemSize hwf hoff hp hal
  · exact ⟨s.readDatum p size, step_readDmem hr hb hi (target_dmem hoff hp hal), datumSize_readDatum ..,
      datumNat_readDatum ..⟩
  · exact aligned_access_le_dmemSize hwf hoff hp hal
  · refine ⟨_, step_writeDmem hr hb hi (target_dmem hoff hp hal), rfl, fun i hlt => ?_, fun a ha => ?_, rfl⟩
    · rw [readByte_respond, readByte_setInputs, readByte_setMem_writeBytes, length_datumBytes,
        if_pos (by omega), Nat.add_sub_cancel_left]
      exact toNat_getD_datumBytes hlt
    · rw [readByte_respond, readByte_setInputs, readByte_setMem_writeBytes, length_datumBytes, if_neg ha]

end Sys2Proof.Machine

/-! ## The CMD words: decoding matches the whole word -/

namespace Sys2Proof.Machine

/-- A CMD word is its two fields, bits [31:8] above the OPCODE (R80). -/
theorem reservedField_append_opcodeField (w : Word) : reservedField w ++ opcodeField w = w := by
  calc reservedField w ++ opcodeField w = w.extractLsb' 0 32 := BitVec.extractLsb'_append_extractLsb'_eq_extractLsb' rfl
    _ = w := BitVec.extractLsb'_eq_self

/-- A word that decodes has zero reserved bits and carries the command's OPCODE (R80, R82). -/
theorem fields_of_decode_ok {w : Word} {i : Instr} (h : decode w = .ok i) :
    reservedField w = 0 ∧ opcodeField w = opcodeOf i := by
  unfold decode at h
  split at h
  case isTrue => cases h
  case isFalse hres =>
    refine ⟨not_not.1 hres, BitVec.eq_of_toNat_eq ?_⟩
    split at h <;> cases h <;> assumption

/-- Each command's word decodes to it (R82). -/
theorem decode_encode (i : Instr) : decode (encode i) = .ok i := by
  cases i <;> rfl

/-- A command matches exactly one whole word, its encoding (R82). -/
theorem decode_eq_ok_iff (w : Word) (i : Instr) : decode w = .ok i ↔ w = encode i := by
  constructor
  · intro h
    obtain ⟨hres, hop⟩ := fields_of_decode_ok h
    rw [← reservedField_append_opcodeField w, hres, hop, encode]
  · rintro rfl
    exact decode_encode i

/-- Settles O1: a word decodes to a command exactly when it is the command's encoding, and the seven encodings are the
words of the opcode map. -/
theorem commandWordsDecode : Obligations.CommandWordsDecode := by
  unfold Obligations.CommandWordsDecode
  intro w
  exact ⟨decode_eq_ok_iff w .generate, decode_eq_ok_iff w .set, decode_eq_ok_iff w .get,
    decode_eq_ok_iff w .matchPrefix, decode_eq_ok_iff w .encode, decode_eq_ok_iff w .decode,
    decode_eq_ok_iff w .clear⟩

end Sys2Proof.Machine

/-! ## The match of R131: the shortest code that starts the buffer, then the least symbol -/

namespace Sys2Proof.Machine

/-! ### What R131 asks of an answer -/

/-- `r` is the answer R131 asks for: the symbol and the length of the shortest code whose form starts `buf`, the least
symbol among equal lengths, or `none` where no code's form starts it. -/
def CodeTable.MatchAnswer {α : Type} (t : CodeTable) (form : Bits → List α) (buf : List α) :
    Option (Symbol × Nat) → Prop
  | some (y, n) =>
    ∃ c, t.lookup y = some c ∧ c.length = n ∧ form c <+: buf ∧
      ∀ y' c', t.lookup y' = some c' → form c' <+: buf → n < c'.length ∨ (n = c'.length ∧ y.toNat ≤ y'.toNat)
  | none => ∀ y c, t.lookup y = some c → ¬ form c <+: buf

section
variable {α : Type} {t : CodeTable} {form : Bits → List α} {buf : List α}

/-- R131 determines the answer: (length, symbol) in dictionary order is a linear order. -/
theorem CodeTable.MatchAnswer.unique {r r' : Option (Symbol × Nat)} (h : t.MatchAnswer form buf r)
    (h' : t.MatchAnswer form buf r') : r = r' := by
  match r, r' with
  | none, none => rfl
  | none, some _ =>
    obtain ⟨c, hc, -, hp, -⟩ := h'
    exact absurd hp (h _ c hc)
  | some _, none =>
    obtain ⟨c, hc, -, hp, -⟩ := h
    exact absurd hp (h' _ c hc)
  | some (y, n), some (y', n') =>
    obtain ⟨c, hc, rfl, hp, hmin⟩ := h
    obtain ⟨c', hc', rfl, hp', hmin'⟩ := h'
    have hle := hmin y' c' hc' hp'
    have hge := hmin' y c hc hp
    have hlen : c.length = c'.length := by omega
    have hsym : y = y' := BitVec.eq_of_toNat_eq (by omega)
    rw [hlen, hsym]

variable [DecidableEq α]

/-- The length loop answers a length only after finding the buffer long enough for it. -/
theorem matchLengths_le {lens : List Nat} {y : Symbol} {n : Nat} (h : t.matchLengths form buf lens = some (y, n)) :
    n ≤ buf.length := by
  induction lens with
  | nil => cases h
  | cons len rest ih =>
    unfold CodeTable.matchLengths at h
    split at h
    case isTrue => cases h
    case isFalse hle =>
      split at h
      case h_1 => cases h; omega
      case h_2 => exact ih h

/-- A match consumes no more than the buffer, whatever the table. -/
theorem matchPrefix_le {y : Symbol} {n : Nat} (h : t.matchPrefix form buf = some (y, n)) : n ≤ buf.length := by
  unfold CodeTable.matchPrefix at h
  split at h
  case isTrue => cases h
  case isFalse =>
    split at h
    case isTrue => cases h
    case isFalse => exact matchLengths_le h

variable (hform : ∀ c, (form c).length = c.length)
include hform

/-- The entries that match the first `n` elements are the codes of length `n` whose form starts the buffer. -/
theorem entryMatches_take_iff {n : Nat} (hn : n ≤ buf.length) (e : Option Bits) :
    entryMatches form (buf.take n) e = true ↔ ∃ c, e = some c ∧ c.length = n ∧ form c <+: buf := by
  rw [entryMatches_iff, List.length_take_of_le hn]
  refine exists_congr fun c => and_congr_right fun _ => and_congr_right fun hc => ?_
  rw [List.prefix_iff_eq_take, hform, hc]

/-- The length loop answers as R131 asks when it tries, in rising order, the length of every code that fits. -/
theorem matchLengths_answer {lens : List Nat} (hrising : lens.Pairwise (· < ·))
    (hall : ∀ y c, t.lookup y = some c → form c <+: buf → c.length ∈ lens) :
    t.MatchAnswer form buf (t.matchLengths form buf lens) := by
  induction lens with
  | nil => exact fun y c hc hp => List.not_mem_nil (hall y c hc hp)
  | cons len rest ih =>
    obtain ⟨hfirst, hrest⟩ := List.pairwise_cons.1 hrising
    have hlen_le : ∀ y c, t.lookup y = some c → form c <+: buf → len ≤ c.length := fun y c hc hp => by
      obtain h | h := List.mem_cons.1 (hall y c hc hp)
      · exact h.ge
      · exact (hfirst _ h).le
    unfold CodeTable.matchLengths
    split
    case isTrue hshort =>
      intro y c hc hp
      have := hlen_le y c hc hp
      have := hp.length_le
      rw [hform] at this
      omega
    case isFalse hfits =>
      have hmatch := entryMatches_take_iff hform (Nat.not_lt.1 hfits)
      split
      case h_1 y hfind =>
        obtain ⟨hy, hleast⟩ := (findCode_eq_some ..).1 hfind
        obtain ⟨c, hc, hcl, hp⟩ := (hmatch _).1 hy
        refine ⟨c, hc, hcl, hp, fun y' c' hc' hp' => (hlen_le y' c' hc' hp').lt_or_eq.imp_right fun heq => ⟨heq, ?_⟩⟩
        refine Nat.not_lt.1 fun hlt => Bool.false_ne_true ((hleast y' hlt).symm.trans ?_)
        exact (hmatch _).2 ⟨c', hc', heq.symm, hp'⟩
      case h_2 hfind =>
        refine ih hrest fun y c hc hp => (List.mem_cons.1 (hall y c hc hp)).resolve_left fun heq => ?_
        exact Bool.false_ne_true (((findCode_eq_none ..).1 hfind y).symm.trans ((hmatch _).2 ⟨c, hc, heq, hp⟩))

end

/-! ### The match on a bookkept table -/

/-- A bookkept table that counts no code has none (R41). -/
theorem CodeTable.Bookkept.lookup_of_count_zero {t : CodeTable} (h : t.Bookkept) (h0 : t.count = 0) (y : Symbol) :
    t.lookup y = none := by
  have hnil := List.length_eq_zero_iff.1 (h.count_eq.symm.trans h0)
  simpa using List.filter_eq_nil_iff.1 hnil y (mem_allSymbols y)

section
variable {α : Type} [DecidableEq α] {t : CodeTable} {form : Bits → List α} {buf : List α}

/-- On a bookkept table the match is the answer of R131: its lengths from MIN_LEN to MAX_LEN are those of every code. -/
theorem matchPrefix_answer (ht : t.Bookkept) (hform : ∀ c, (form c).length = c.length) :
    t.MatchAnswer form buf (t.matchPrefix form buf) := by
  unfold CodeTable.matchPrefix
  split
  case isTrue h0 =>
    intro y c hc
    rw [ht.lookup_of_count_zero h0] at hc
    cases hc
  case isFalse =>
    split
    case isTrue hshort =>
      intro y c hc hp
      have := ht.min_le y c hc
      have := hp.length_le
      rw [hform] at this
      omega
    case isFalse =>
      refine matchLengths_answer hform List.pairwise_lt_range' fun y c hc _ => List.mem_range'_1.2 ?_
      have := ht.min_le y c hc
      have := ht.le_max y c hc
      omega

/-- On a bookkept table the match answers `r` exactly when R131 asks for `r`. -/
theorem matchPrefix_eq_iff (ht : t.Bookkept) (hform : ∀ c, (form c).length = c.length) (r : Option (Symbol × Nat)) :
    t.matchPrefix form buf = r ↔ t.MatchAnswer form buf r := by
  have hanswer := matchPrefix_answer (buf := buf) ht hform
  exact ⟨fun h => h ▸ hanswer, hanswer.unique⟩

end

@[simp] theorem length_chars (c : Bits) : (chars c).length = c.length := List.length_map ..

/-- Settles O25: the match's answer is the one R131 determines, for the code characters and for the bits. -/
theorem matchIsShortestThenLeast : Obligations.MatchIsShortestThenLeast := by
  unfold Obligations.MatchIsShortestThenLeast
  intro t ht
  have hchars := fun buf => matchPrefix_eq_iff (buf := buf) ht length_chars
  have hbits := fun buf => matchPrefix_eq_iff (form := id) (buf := buf) ht fun _ => rfl
  exact ⟨fun buf => ⟨fun y n => hchars buf (some (y, n)), hchars buf none⟩,
    fun buf => ⟨fun y n => hbits buf (some (y, n)), hbits buf none⟩⟩

/-! ### MATCH -/

section
variable {s : State}

theorem srcOk_iff : s.srcOk = true ↔ InRange s.params s.srcAddr s.srcLen := inDmem_iff ..

theorem valOk_iff : s.valOk = true ↔ InRange s.params s.valAddr s.valLen := inDmem_iff ..

@[simp] theorem length_srcBytes : s.srcBytes.length = s.srcLen.toNat := memRead_length ..

theorem exec_matchPrefix_some (hr : InRange s.params s.srcAddr s.srcLen) {y : Symbol} {n : Nat}
    (hm : s.table.matchPrefix chars s.srcBytes = some (y, n)) :
    exec .matchPrefix s = .next ((s.setMatch y n).succeed n) := by
  simp only [exec, execMatchPrefix, srcOk_iff.2 hr, hm, if_true]

theorem exec_matchPrefix_none (hr : InRange s.params s.srcAddr s.srcLen)
    (hm : s.table.matchPrefix chars s.srcBytes = none) :
    exec .matchPrefix s = .next { s.completedOk with outLen := 0, matched := false } := by
  simp only [exec, execMatchPrefix, srcOk_iff.2 hr, hm, if_true]
  rfl

theorem exec_matchPrefix_out_of_range (hr : ¬ InRange s.params s.srcAddr s.srcLen) :
    exec .matchPrefix s = .next (s.raise .rangeError) :=
  if_neg (mt srcOk_iff.1 hr)

/-- Advancing a range that passes its check by a part of it wraps neither register, and the rest passes (R130). -/
theorem advance_inRange {p : Params} {base len : Word} {n : Nat} (hwf : p.wf = true) (hr : InRange p base len)
    (hn : n ≤ len.toNat) :
    (base + BitVec.ofNat 32 n).toNat = base.toNat + n ∧ (len - BitVec.ofNat 32 n).toNat + n = len.toNat ∧
      InRange p (base + BitVec.ofNat 32 n) (len - BitVec.ofNat 32 n) := by
  obtain ⟨-, hlog, -, -⟩ := (params_wf_iff p).1 hwf
  have hsize : 2 ^ p.dmemLog2 ≤ 2 ^ 24 := Nat.pow_le_pow_right (by decide) hlog
  have hbase : (base + BitVec.ofNat 32 n).toNat = base.toNat + n := by
    rw [BitVec.toNat_add, BitVec.toNat_ofNat]; omega
  have hlen : (len - BitVec.ofNat 32 n).toNat = len.toNat - n := by
    rw [BitVec.toNat_sub, BitVec.toNat_ofNat]; omega
  unfold InRange at *
  rw [hbase, hlen]
  omega

end

/-- Settles O26: a match is no longer than the source range, so advancing the range by it does not wrap; an absent table
holds no code, so that nothing matches. -/
theorem matchConsumesTheCode : Obligations.MatchConsumesTheCode := by
  unfold Obligations.MatchConsumesTheCode
  refine fun s hwf => ⟨fun hr => ⟨fun y n hm => ?_, exec_matchPrefix_none hr, fun hinv habs => ?_⟩, fun hr => ?_⟩
  · have hn : n ≤ s.srcLen.toNat := length_srcBytes ▸ matchPrefix_le hm
    have hout : (BitVec.ofNat 32 n).toNat = n := BitVec.toNat_ofNat .. ▸ Nat.mod_eq_of_lt (by omega)
    obtain ⟨haddr, hlen, hrange⟩ := advance_inRange hwf hr hn
    exact ⟨_, exec_matchPrefix_some hr hm, rfl, hout, rfl, haddr, hlen, hrange, rfl⟩
  · refine exec_matchPrefix_none hr ((matchPrefix_eq_iff hinv.bookkept length_chars none).2 fun y c hc => ?_)
    rw [hinv.absent habs] at hc
    cases hc
  · exact ⟨_, exec_matchPrefix_out_of_range hr, rfl, rfl, rfl⟩

end Sys2Proof.Machine

/-! ## GENERATE, SET and CLEAR -/

namespace Sys2Proof.Machine

/-! ### The tables of a source without and with one distinct symbol -/

theorem buildTable_nil : buildTable [] = emptyTable := by
  have h : leafSymbols [] = [] := List.eq_nil_iff_forall_not_mem.2 fun y => by simp [mem_leafSymbols]
  simp only [buildTable, h]

/-- The leaves of a source whose bytes are all `y` (R102, R103). -/
theorem leafSymbols_eq_singleton {src : List Byte} {y : Symbol} (hne : src ≠ []) (hall : ∀ b ∈ src, b = y) :
    leafSymbols src = [y] := by
  have hmem : ∀ r, r ∈ leafSymbols src ↔ r ∈ [y] := fun r => by
    rw [mem_leafSymbols, List.mem_singleton]
    refine ⟨hall r, ?_⟩
    rintro rfl
    obtain ⟨b, hb⟩ := List.exists_mem_of_ne_nil src hne
    exact hall b hb ▸ hb
  exact ((List.perm_ext_iff_of_nodup (leafSymbols_nodup src) (List.nodup_singleton y)).2 hmem).eq_singleton

/-- Settles O17: `y` is the only leaf, so the table is the empty one with "0" registered for `y`. -/
theorem onlySymbolGetsZero : Obligations.OnlySymbolGetsZero := by
  unfold Obligations.OnlySymbolGetsZero
  intro src y hne hall
  have htable : buildTable src = emptyTable.register y [false] := by
    simp only [buildTable, leafSymbols_eq_singleton hne hall]
  rw [htable]
  refine ⟨fun r => ?_, rfl, rfl, rfl⟩
  rw [lookup_register, lookup_emptyTable]

/-! ### GENERATE -/

/-- Settles O19: the two arms of GENERATE are the two outcomes of the range check. -/
theorem generateBuildsTable : Obligations.GenerateBuildsTable := by
  unfold Obligations.GenerateBuildsTable
  exact fun s => ⟨fun hr => if_pos (srcOk_iff.2 hr),
    fun hr => ⟨s.raise .rangeError, if_neg (mt srcOk_iff.1 hr), rfl, rfl, rfl, rfl⟩⟩

/-- Settles O20: a range of length 0 passes its check at any address, and holds no byte to build from. -/
theorem generateOfNothingIsEmpty : Obligations.GenerateOfNothingIsEmpty := by
  unfold Obligations.GenerateOfNothingIsEmpty
  intro s h0
  have hsrc : s.srcBytes = [] := List.length_eq_zero_iff.1 (by simp [h0])
  refine ⟨_, (generateBuildsTable s).1 (.inl (by simp [h0])), rfl, rfl, ?_⟩
  rw [hsrc, buildTable_nil]
  exact ⟨lookup_emptyTable, rfl, rfl, rfl⟩

/-! ### SET -/

/-- A byte that is no code character (R86). -/
theorem isCodeChar_eq_false_iff (b : Byte) : isCodeChar b = false ↔ b ≠ 0x30 ∧ b ≠ 0x31 := by
  simp [isCodeChar]

/-- ERR_CODE of SET's first failing check, the checks in the order of R120. -/
theorem errorCode_setError (s : State) :
    ((setError s).map errorCode).getD 0 =
      (if ¬ InRange s.params s.srcAddr s.srcLen then 7
       else if ¬ InRange s.params s.valAddr s.valLen then 7
       else if s.srcLen ≠ 1 then 1
       else if s.table.lookup (s.readByte s.srcAddr.toNat) ≠ none then 2
       else if s.valLen = 0 ∨ s.params.codeLenMax < s.valLen.toNat then 3
       else if ∃ b ∈ s.valBytes, b ≠ 0x30 ∧ b ≠ 0x31 then 3
       else 0) := by
  have hsrc : (!s.srcOk) = true ↔ ¬ InRange s.params s.srcAddr s.srcLen := by
    rw [Bool.not_eq_true', ← Bool.not_eq_true, srcOk_iff]
  have hval : (!s.valOk) = true ↔ ¬ InRange s.params s.valAddr s.valLen := by
    rw [Bool.not_eq_true', ← Bool.not_eq_true, valOk_iff]
  have hdup : (s.table.lookup s.entrySymbol).isSome ↔ s.table.lookup (s.readByte s.srcAddr.toNat) ≠ none :=
    Option.isSome_iff_ne_none
  have hlen : s.valLen.toNat = 0 ↔ s.valLen = 0 := BitVec.toNat_inj (y := 0)
  have hchars : (!s.valBytes.all isCodeChar) = true ↔ ∃ b ∈ s.valBytes, b ≠ 0x30 ∧ b ≠ 0x31 := by
    simp [isCodeChar_eq_false_iff]
  simp only [setError, hsrc, hval, hdup, hlen, hchars]
  split_ifs <;> rfl

/-- Settles O22: SET raises the error of its first failing check, and raising an error leaves table and DMEM. -/
theorem setErrorOrder : Obligations.SetErrorOrder := by
  unfold Obligations.SetErrorOrder
  intro s
  obtain ⟨t, ht⟩ := exec_total .set s
  refine ⟨t, ht, ?_⟩
  rw [← errorCode_setError]
  obtain ⟨e, he, rfl⟩ | ⟨he, rfl⟩ := execSet_cases ht
  · rw [he]
    exact ⟨rfl, fun _ => ⟨rfl, rfl, rfl⟩⟩
  · rw [he]
    exact ⟨rfl, fun hne => absurd rfl hne⟩

/-! ### CLEAR -/

/-- Settles O27: CLEAR installs the empty table. -/
theorem clearRemovesTable : Obligations.ClearRemovesTable := by
  unfold Obligations.ClearRemovesTable
  exact fun s => ⟨(s.setTable emptyTable false).succeed 0, rfl, rfl, lookup_emptyTable, rfl, rfl, rfl, rfl⟩

end Sys2Proof.Machine

/-! ## Bit strings, packing and stripping (R11, R161 to R164) -/

namespace Sys2Proof.Machine

/-! ### Bytes and their bits -/

theorem bits8_eq_map (b : Byte) : bits8 b = (List.range 8).map (fun i => b.getLsbD (7 - i)) := rfl

theorem bitsToNat_concat (g : Bits) (b : Bool) : bitsToNat (g ++ [b]) = 2 * bitsToNat g + b.toNat := by
  simp [bitsToNat]

/-- Bit `i` of the number a bit string denotes is the string's bit `i` from its end. -/
theorem testBit_bitsToNat (g : Bits) (i : Nat) : (bitsToNat g).testBit i = g.reverse.getD i false := by
  induction g using List.reverseRecOn generalizing i with
  | nil => simp [bitsToNat]
  | append_singleton g b ih =>
    rw [bitsToNat_concat, List.reverse_append]
    cases i with
    | zero => cases b <;> simp [Nat.testBit_zero]
    | succ i =>
      have hdiv : (2 * bitsToNat g + b.toNat) / 2 = bitsToNat g := by cases b <;> simp; omega
      rw [Nat.testBit_succ, hdiv, ih]
      rfl

/-- Bit `i` of a packed byte, MSB first, is bit `i` of the string (R11). -/
theorem getLsbD_byteOf {g : Bits} (hg : g.length = 8) {i : Nat} (hi : i < 8) :
    (byteOf g).getLsbD (7 - i) = g.getD i false := by
  have hsub : 8 - 1 - (7 - i) = i := by omega
  rw [byteOf, BitVec.getLsbD_ofNat, testBit_bitsToNat, decide_eq_true (by omega), Bool.true_and,
    List.getD_eq_getElem?_getD, List.getElem?_reverse (by omega), hg, hsub, List.getD_eq_getElem?_getD]

/-- `bits8` undoes `byte` (R11). -/
theorem bits8_byteOf {g : Bits} (hg : g.length = 8) : bits8 (byteOf g) = g := by
  refine List.ext_getElem (by simp [bits8_eq_map, hg]) fun i _ hi => ?_
  simp [bits8_eq_map, getLsbD_byteOf hg (hg ▸ hi), hi]

@[simp] theorem length_bits8 (b : Byte) : (bits8 b).length = 8 := rfl

/-! ### Framing and packing -/

@[simp] theorem length_frame (bits : Bits) : (frame bits).length = bits.length + 2 := by
  simp [frame]

@[simp] theorem length_pack (framed : Bits) : (pack framed).length = byteCount framed.length := by
  simp [pack]

/-- Whole bytes hold the framed bits, with fewer than 8 bits to spare (R162). -/
theorem byteCount_bounds (n : Nat) : n ≤ 8 * byteCount n ∧ 8 * byteCount n - n ≤ 7 := by
  unfold byteCount; omega

/-- The zero padding to whole bytes (R162). -/
def padded (framed : Bits) : Bits :=
  framed ++ List.replicate (8 * byteCount framed.length - framed.length) false

theorem pack_eq_map (framed : Bits) :
    pack framed =
      (List.range (byteCount framed.length)).map (fun k => byteOf (((padded framed).drop (8 * k)).take 8)) := rfl

@[simp] theorem length_padded (framed : Bits) : (padded framed).length = 8 * byteCount framed.length := by
  have := (byteCount_bounds framed.length).1
  simp [padded]; omega

/-- Bit `j` of the packed bytes, MSB first, is bit `j` of the padded string (R162). -/
theorem getLsbD_pack {framed : Bits} {j : Nat} (hj : j < 8 * byteCount framed.length) :
    ((pack framed).getD (j / 8) 0).getLsbD (7 - j % 8) = (padded framed).getD j false := by
  have hk : j / 8 < byteCount framed.length := by omega
  have hchunk : (((padded framed).drop (8 * (j / 8))).take 8).length = 8 := by simp; omega
  have hjd : 8 * (j / 8) + j % 8 = j := Nat.div_add_mod j 8
  have hbyte : (pack framed).getD (j / 8) 0 = byteOf (((padded framed).drop (8 * (j / 8))).take 8) := by
    simp [pack_eq_map, hk]
  rw [hbyte, getLsbD_byteOf hchunk (Nat.mod_lt j (by decide))]
  simp [Nat.mod_lt, hjd]

/-- Cutting a string of `8 * m` bits into bytes and reading their bits gives the string back. -/
theorem flatMap_bits8_chunks {m : Nat} {s : Bits} (hs : s.length = 8 * m) :
    ((List.range m).map (fun k => byteOf ((s.drop (8 * k)).take 8))).flatMap bits8 = s := by
  induction m generalizing s with
  | zero => simpa [eq_comm] using hs
  | succ m ih =>
    have htail := ih (s := s.drop 8) (by simp; omega)
    rw [List.range_succ_eq_map, List.map_cons, List.map_map, List.flatMap_cons, bits8_byteOf (by simp; omega)]
    simp only [List.drop_drop, ← Nat.mul_succ, Nat.add_comm 8] at htail
    simp only [Function.comp_def]
    rw [htail]
    exact List.take_append_drop 8 s

/-- The bits of the packed bytes are the framed bits and the zero padding (R162). -/
theorem flatMap_bits8_pack (framed : Bits) : (pack framed).flatMap bits8 = padded framed := by
  rw [pack_eq_map, flatMap_bits8_chunks (length_padded framed)]

/-! ### The first and the last 1 (R13) -/

/-- The first 1 is what follows the leading 0s. -/
theorem first1_eq_some_iff {s : Bits} {f : Nat} :
    first1 s = some f ↔ ∃ x, s = List.replicate f false ++ true :: x := by
  induction s generalizing f with
  | nil => simp [first1]
  | cons b s ih =>
    cases b with
    | true => cases f <;> simp [first1, List.findIdx?_cons, List.replicate_succ]
    | false =>
      cases f with
      | zero => simp [first1, List.findIdx?_cons]
      | succ f => simpa [first1, List.findIdx?_cons, List.replicate_succ] using ih

/-- The last 1 is what the trailing 0s follow. -/
theorem last1_eq_some_iff {s : Bits} {l : Nat} :
    last1 s = some l ↔ ∃ x k, x.length = l ∧ s = x ++ true :: List.replicate k false := by
  have hrev : ∀ k, first1 s.reverse = some k ↔ ∃ x, s = x ++ true :: List.replicate k false := fun k => by
    rw [first1_eq_some_iff]
    constructor
    · rintro ⟨x, hx⟩
      exact ⟨x.reverse, by simpa using congrArg List.reverse hx⟩
    · rintro ⟨x, rfl⟩
      exact ⟨x.reverse, by simp⟩
  rw [last1, Option.map_eq_some_iff]
  constructor
  · rintro ⟨k, hk, rfl⟩
    obtain ⟨x, rfl⟩ := (hrev k).1 hk
    exact ⟨x, k, by simp, rfl⟩
  · rintro ⟨x, k, rfl, rfl⟩
    exact ⟨k, (hrev k).2 ⟨x, rfl⟩, by simp⟩

end Sys2Proof.Machine

namespace Sys2Proof.Machine

/-! ### Stripping (R164) -/

/-- A string starts with 0s and a 1 inside its first part exactly when that part does. -/
theorem append_eq_replicate_true_iff {a s buf : Bits} {m : Nat} :
    a ++ s = List.replicate m false ++ true :: buf ∧ m < a.length ↔
      ∃ x, a = List.replicate m false ++ true :: x ∧ buf = x ++ s := by
  constructor
  · rintro ⟨h, hm⟩
    obtain ⟨x, rfl⟩ : List.replicate m false ++ [true] <+: a :=
      List.prefix_of_prefix_length_le ⟨buf, by simp⟩ ⟨s, h⟩ (by simp; omega)
    exact ⟨x, by simp, by simpa [eq_comm] using h⟩
  · rintro ⟨x, rfl, rfl⟩
    simp

/-- A string ends with a 1 and 0s inside its last part exactly when that part does. -/
theorem append_eq_true_replicate_iff {s z buf : Bits} {k : Nat} :
    s ++ z = buf ++ true :: List.replicate k false ∧ k < z.length ↔
      ∃ y, z = y ++ true :: List.replicate k false ∧ buf = s ++ y := by
  constructor
  · rintro ⟨h, hk⟩
    obtain ⟨y, rfl⟩ : true :: List.replicate k false <:+ z :=
      List.suffix_of_suffix_length_le ⟨buf, rfl⟩ ⟨s, h⟩ (by simp; omega)
    rw [← List.append_assoc] at h
    exact ⟨y, rfl, (List.append_cancel_right h).symm⟩
  · rintro ⟨y, rfl, rfl⟩
    exact ⟨(List.append_assoc ..).symm, by simp; omega⟩

/-- Dropping the leading 0s and the first 1. -/
theorem drop_replicate_true (m : Nat) (x : Bits) : (List.replicate m false ++ true :: x).drop (m + 1) = x := by
  simp [List.drop_append]

@[simp] theorem first1_replicate_true (m : Nat) (x : Bits) :
    first1 (List.replicate m false ++ true :: x) = some m :=
  first1_eq_some_iff.2 ⟨x, rfl⟩

@[simp] theorem last1_true_replicate (x : Bits) (k : Nat) :
    last1 (x ++ true :: List.replicate k false) = some x.length :=
  last1_eq_some_iff.2 ⟨x, k, rfl, rfl⟩

/-- What `strip` answers for a single raw byte. -/
theorem strip_singleton_eq_ok_iff {b : Byte} {buf : Bits} :
    strip [b] = .ok buf ↔
      ∃ m k, bits8 b = List.replicate m false ++ true :: (buf ++ true :: List.replicate k false) := by
  simp only [strip, List.getLast?_nil]
  constructor
  · intro h
    cases hf : first1 (bits8 b) with
    | none => simp [hf] at h
    | some f =>
      obtain ⟨x, hx⟩ := first1_eq_some_iff.1 hf
      rw [hx] at h ⊢
      simp only [first1_replicate_true, drop_replicate_true] at h
      cases hl : last1 x with
      | none => simp [hl] at h
      | some l =>
        obtain ⟨y, k, rfl, rfl⟩ := last1_eq_some_iff.1 hl
        simp only [last1_true_replicate, List.take_left, Except.ok.injEq] at h
        exact ⟨f, k, by rw [h]⟩
  · rintro ⟨m, k, h⟩
    simp only [h, first1_replicate_true, drop_replicate_true, last1_true_replicate, List.take_left]

/-- What `strip` answers for two raw bytes and more. -/
theorem strip_concat_eq_ok_iff {a z : Byte} {mid : List Byte} {buf : Bits} :
    strip (a :: (mid ++ [z])) = .ok buf ↔
      ∃ m k x y, bits8 a = List.replicate m false ++ true :: x ∧ bits8 z = y ++ true :: List.replicate k false ∧
        buf = x ++ mid.flatMap bits8 ++ y := by
  simp only [strip, List.getLast?_concat, List.dropLast_concat]
  constructor
  · intro h
    cases hf : first1 (bits8 a) with
    | none => simp [hf] at h
    | some f =>
      cases hl : last1 (bits8 z) with
      | none => simp [hf, hl] at h
      | some l =>
        obtain ⟨x, hx⟩ := first1_eq_some_iff.1 hf
        obtain ⟨y, k, rfl, hy⟩ := last1_eq_some_iff.1 hl
        simp only [hx, hy, first1_replicate_true, drop_replicate_true, last1_true_replicate, List.take_left,
          Except.ok.injEq] at h
        exact ⟨f, k, x, y, hx, hy, h.symm⟩
  · rintro ⟨m, k, x, y, hx, hy, rfl⟩
    simp only [hx, hy, first1_replicate_true, drop_replicate_true, last1_true_replicate, List.take_left]

/-- `strip` answers exactly what stands between the sentinels of the first and the last byte (R164). -/
theorem strip_eq_ok_iff {raw : List Byte} (hraw : raw ≠ []) {buf : Bits} :
    strip raw = .ok buf ↔
      ∃ m k, m ≤ 7 ∧ k ≤ 7 ∧
        raw.flatMap bits8 = List.replicate m false ++ [true] ++ buf ++ [true] ++ List.replicate k false := by
  simp only [List.append_assoc, List.singleton_append]
  obtain ⟨a, rest, rfl⟩ := List.exists_cons_of_ne_nil hraw
  obtain rfl | ⟨mid, z, rfl⟩ := List.eq_nil_or_concat' rest
  · rw [strip_singleton_eq_ok_iff, List.flatMap_singleton]
    refine exists₂_congr fun m k => ⟨fun h => ?_, fun h => h.2.2⟩
    have hlen := congrArg List.length h
    simp only [length_bits8, List.length_append, List.length_cons, List.length_replicate] at hlen
    exact ⟨by omega, by omega, h⟩
  · rw [strip_concat_eq_ok_iff]
    simp only [List.flatMap_cons, List.flatMap_append, List.flatMap_nil, List.append_nil]
    refine exists₂_congr fun m k => ⟨?_, ?_⟩
    · rintro ⟨x, y, ha, hz, rfl⟩
      obtain ⟨hend, hk⟩ := append_eq_true_replicate_iff.2 ⟨y, hz, rfl⟩
      obtain ⟨h, hm⟩ := append_eq_replicate_true_iff.2 ⟨x, ha, hend.symm.trans (List.append_assoc ..)⟩
      exact ⟨Nat.le_of_lt_succ hm, Nat.le_of_lt_succ hk, h⟩
    · rintro ⟨hm, hk, h⟩
      obtain ⟨x, ha, hx⟩ := append_eq_replicate_true_iff.1 ⟨h, Nat.lt_succ_of_le hm⟩
      rw [← List.append_assoc] at hx
      obtain ⟨y, hz, hy⟩ := append_eq_true_replicate_iff.1 ⟨hx.symm, Nat.lt_succ_of_le hk⟩
      exact ⟨x, y, ha, hz, hy⟩

theorem strip_eq_error {raw : List Byte} {e : CmdError} (h : strip raw = .error e) : e = .corruptStream := by
  cases raw with
  | nil => cases h
  | cons first rest =>
    simp only [strip] at h
    repeat' split at h
    all_goals cases h <;> rfl

/-- Stripping the stream of a bit string gives it back (R161 to R164). -/
theorem strip_pack_frame (bits : Bits) : strip (pack (frame bits)) = .ok bits := by
  have hne : pack (frame bits) ≠ [] := List.ne_nil_of_length_pos (by simp [byteCount])
  refine (strip_eq_ok_iff hne).2 ⟨0, _, Nat.zero_le 7, (byteCount_bounds (frame bits).length).2, ?_⟩
  rw [flatMap_bits8_pack]
  simp [padded, frame]

/-- Settles O31: the sentinels are found in the first and the last byte, so up to seven 0s stand before and after them;
the stream of a bit string has them there. -/
theorem stripFindsTheSentinels : Obligations.StripFindsTheSentinels := by
  unfold Obligations.StripFindsTheSentinels
  exact ⟨fun raw hraw => ⟨fun buf => strip_eq_ok_iff hraw, fun e => strip_eq_error⟩, strip_pack_frame⟩

end Sys2Proof.Machine

/-! ## The decode loop (R165) -/

namespace Sys2Proof.Machine

section
variable {t : CodeTable} {buf rest : Bits} {out : List Symbol}

/-! ### The loop's equations -/

@[simp] theorem decodeLoop_nil (room : Nat) : decodeLoop t room [] = .ok [] := by
  cases room <;> rfl

theorem decodeLoop_no_match (hb : buf ≠ []) (hm : t.matchPrefix id buf = none) (room : Nat) :
    decodeLoop t room buf = .error .corruptStream := by
  obtain ⟨b, bs, rfl⟩ := List.exists_cons_of_ne_nil hb
  cases room <;> simp only [decodeLoop, hm]

theorem decodeLoop_full (hb : buf ≠ []) (hm : t.matchPrefix id buf ≠ none) :
    decodeLoop t 0 buf = .error .capacityExceeded := by
  obtain ⟨b, bs, rfl⟩ := List.exists_cons_of_ne_nil hb
  obtain ⟨yn, hyn⟩ := Option.ne_none_iff_exists'.1 hm
  simp only [decodeLoop, hyn]

theorem decodeLoop_match {y : Symbol} {n : Nat} (hb : buf ≠ []) (hm : t.matchPrefix id buf = some (y, n)) (room : Nat) :
    decodeLoop t (room + 1) buf = (decodeLoop t room (buf.drop n)).map (y :: ·) := by
  obtain ⟨b, bs, rfl⟩ := List.exists_cons_of_ne_nil hb
  simp only [decodeLoop, hm]
  cases decodeLoop t room ((b :: bs).drop n) <;> rfl

/-! ### Consuming and decoding -/

/-- The loop first emits what the matches consume, then goes on with what is left and the room that is left. -/
theorem Consumes.decodeLoop_eq (h : Consumes t buf out rest) (room : Nat) :
    decodeLoop t (out.length + room) buf = (decodeLoop t room rest).map (out ++ ·) := by
  induction h with
  | done buf => cases hd : decodeLoop t room buf <;> simp [hd, Except.map]
  | @symbol buf rest out y n hb hm _ ih =>
    rw [List.length_cons, Nat.add_right_comm, decodeLoop_match hb hm, ih]
    cases decodeLoop t room rest <;> rfl

/-- The same, `cap` being the room before the first match. -/
theorem Consumes.decodeLoop_of_le (h : Consumes t buf out rest) {cap : Nat} (hcap : out.length ≤ cap) :
    decodeLoop t cap buf = (decodeLoop t (cap - out.length) rest).map (out ++ ·) := by
  rw [← h.decodeLoop_eq, Nat.add_sub_cancel' hcap]

theorem Consumes.decodeLoop_ok (h : Consumes t buf out []) {cap : Nat} (hcap : out.length ≤ cap) :
    decodeLoop t cap buf = .ok out := by
  rw [h.decodeLoop_of_le hcap, decodeLoop_nil]
  simp [Except.map]

theorem Consumes.decodeLoop_capacityExceeded (h : Consumes t buf out rest) (hb : rest ≠ [])
    (hm : t.matchPrefix id rest ≠ none) : decodeLoop t out.length buf = .error .capacityExceeded := by
  rw [h.decodeLoop_of_le le_rfl, Nat.sub_self, decodeLoop_full hb hm]
  rfl

theorem Consumes.decodeLoop_corruptStream (h : Consumes t buf out rest) {cap : Nat} (hcap : out.length ≤ cap)
    (hb : rest ≠ []) (hm : t.matchPrefix id rest = none) : decodeLoop t cap buf = .error .corruptStream := by
  rw [h.decodeLoop_of_le hcap, decodeLoop_no_match hb hm]
  rfl

/-- The three ways in which the matches of a buffer end: with the buffer, with a symbol too many for the room, or with
bits that match nothing. -/
theorem consumes_cases (t : CodeTable) (cap : Nat) (buf : Bits) :
    (∃ out, Consumes t buf out [] ∧ out.length ≤ cap) ∨
    (∃ out rest, Consumes t buf out rest ∧ out.length = cap ∧ rest ≠ [] ∧ t.matchPrefix id rest ≠ none) ∨
    (∃ out rest, Consumes t buf out rest ∧ out.length ≤ cap ∧ rest ≠ [] ∧ t.matchPrefix id rest = none) := by
  induction cap generalizing buf with
  | zero =>
    by_cases hb : buf = []
    · exact .inl ⟨[], hb ▸ .done _, le_rfl⟩
    · by_cases hm : t.matchPrefix id buf = none
      · exact .inr (.inr ⟨[], buf, .done _, le_rfl, hb, hm⟩)
      · exact .inr (.inl ⟨[], buf, .done _, rfl, hb, hm⟩)
  | succ cap ih =>
    by_cases hb : buf = []
    · exact .inl ⟨[], hb ▸ .done _, Nat.zero_le _⟩
    · cases hm : t.matchPrefix id buf with
      | none => exact .inr (.inr ⟨[], buf, .done _, Nat.zero_le _, hb, hm⟩)
      | some yn =>
        obtain ⟨out, h, hl⟩ | ⟨out, rest, h, hl, hr⟩ | ⟨out, rest, h, hl, hr⟩ := ih (buf.drop yn.2)
        · exact .inl ⟨yn.1 :: out, .symbol hb hm h, Nat.succ_le_succ hl⟩
        · exact .inr (.inl ⟨yn.1 :: out, rest, .symbol hb hm h, congrArg Nat.succ hl, hr⟩)
        · exact .inr (.inr ⟨yn.1 :: out, rest, .symbol hb hm h, Nat.succ_le_succ hl, hr⟩)

end

/-- Settles O32: the matches of a buffer end in one of three ways, and each gives the loop a different answer. -/
theorem decodeLoopConsumesTheBuffer : Obligations.DecodeLoopConsumesTheBuffer := by
  unfold Obligations.DecodeLoopConsumesTheBuffer
  intro t cap buf
  have hends := consumes_cases t cap buf
  refine ⟨fun out => ⟨fun hok => ?_, fun ⟨h, hl⟩ => h.decodeLoop_ok hl⟩, ⟨fun hcap => ?_, ?_⟩, ⟨fun hcor => ?_, ?_⟩⟩
  · obtain ⟨out', h, hl⟩ | ⟨_, _, h, rfl, hb, hm⟩ | ⟨_, _, h, hl, hb, hm⟩ := hends
    · obtain rfl : out' = out := Except.ok.inj ((h.decodeLoop_ok hl).symm.trans hok)
      exact ⟨h, hl⟩
    · cases (h.decodeLoop_capacityExceeded hb hm).symm.trans hok
    · cases (h.decodeLoop_corruptStream hl hb hm).symm.trans hok
  · obtain ⟨_, h, hl⟩ | hfull | ⟨_, _, h, hl, hb, hm⟩ := hends
    · cases (h.decodeLoop_ok hl).symm.trans hcap
    · exact hfull
    · cases (h.decodeLoop_corruptStream hl hb hm).symm.trans hcap
  · rintro ⟨out, rest, h, rfl, hb, hm⟩
    exact h.decodeLoop_capacityExceeded hb hm
  · obtain ⟨_, h, hl⟩ | ⟨_, _, h, rfl, hb, hm⟩ | hstuck := hends
    · cases (h.decodeLoop_ok hl).symm.trans hcor
    · cases (h.decodeLoop_capacityExceeded hb hm).symm.trans hcor
    · exact hstuck
  · rintro ⟨out, rest, h, hl, hb, hm⟩
    exact h.decodeLoop_corruptStream hl hb hm

end Sys2Proof.Machine

/-! ## ENCODE (R160 to R162, R170) -/

namespace Sys2Proof.Machine

/-! ### The stream of a source -/

/-- The codes of a source whose every symbol has one (R160). -/
theorem codeBits_of_coded {t : CodeTable} {src : List Byte} (h : ∀ b ∈ src, t.lookup b ≠ none) :
    codeBits t src = some (t.codesOf src) := by
  induction src with
  | nil => rfl
  | cons b src ih =>
    obtain ⟨c, hc⟩ := Option.ne_none_iff_exists'.1 (h b (by simp))
    simp [codeBits, hc, ih fun x hx => h x (by simp [hx]), CodeTable.codesOf, CodeTable.codeOf]

/-- A source with a symbol without a code has no stream (R170). -/
theorem codeBits_of_uncoded {t : CodeTable} {src : List Byte} (h : ∃ b ∈ src, t.lookup b = none) :
    codeBits t src = none := by
  induction src with
  | nil => simp at h
  | cons b src ih =>
    obtain ⟨x, hx, hnone⟩ := h
    obtain rfl | hx := List.mem_cons.1 hx
    · simp [codeBits, hnone]
    · simp [codeBits, ih ⟨x, hx, hnone⟩]

theorem encodeStream_of_coded {t : CodeTable} {src : List Byte} (h : ∀ b ∈ src, t.lookup b ≠ none) :
    encodeStream t src = some (pack (frame (t.codesOf src))) := by
  rw [encodeStream, codeBits_of_coded h]
  rfl

theorem encodeStream_of_uncoded {t : CodeTable} {src : List Byte} (h : ∃ b ∈ src, t.lookup b = none) :
    encodeStream t src = none := by
  rw [encodeStream, codeBits_of_uncoded h]
  rfl

/-- The bits of a framed and padded string by position (R161, R162). -/
theorem padded_frame_getD (bits : Bits) (j : Nat) :
    (padded (frame bits)).getD j false =
      if j = 0 then true
      else if j ≤ bits.length then bits.getD (j - 1) false
      else decide (j = bits.length + 1) := by
  cases j with
  | zero => rfl
  | succ j =>
    have hshift : (padded (frame bits)).getD (j + 1) false =
        (bits ++ true ::
          List.replicate (8 * byteCount (frame bits).length - (frame bits).length) false).getD j false := by
      simp [padded, frame]
    rw [hshift, if_neg (Nat.succ_ne_zero j), Nat.add_sub_cancel, List.getD_eq_getElem?_getD]
    obtain hlt | rfl | hgt := Nat.lt_trichotomy j bits.length
    · rw [if_pos (Nat.succ_le_of_lt hlt), List.getElem?_append_left hlt, List.getD_eq_getElem?_getD]
    · simp
    · obtain ⟨i, rfl⟩ := Nat.exists_eq_add_of_lt hgt
      rw [if_neg (by omega), List.getElem?_append_right (by omega), decide_eq_false (by omega),
        show bits.length + i + 1 - bits.length = i + 1 by omega, List.getElem?_cons_succ, List.getElem?_replicate]
      split <;> rfl

/-! ### The command -/

section
variable {s : State}

theorem dstOk_iff : s.dstOk = true ↔ InRange s.params s.dstAddr s.dstCap := inDmem_iff ..

theorem srcDstOverlap_iff : s.srcDstOverlap = true ↔ Overlapping s.srcAddr s.srcLen s.dstAddr s.dstCap :=
  overlaps_iff ..

theorem codecOperandError_of_rangesPass (h : s.RangesPass) : codecOperandError s = none := by
  obtain ⟨hsrc, hdst, hover⟩ := h
  simp [codecOperandError, srcOk_iff.2 hsrc, dstOk_iff.2 hdst, Bool.eq_false_iff.2 (mt srcDstOverlap_iff.1 hover)]

theorem ensureTable_table_eq : s.ensureTable.table = s.encodeTable := ensureTable_table s

/-- ENCODE with every source symbol coded and enough room (R170). -/
theorem exec_encode_coded (hr : s.RangesPass) (hne : s.srcLen ≠ 0)
    (hcoded : ∀ b ∈ s.srcBytes, s.encodeTable.lookup b ≠ none) {out : List Byte}
    (hout : out = pack (frame (s.encodeTable.codesOf s.srcBytes))) (hfit : out.length ≤ s.dstCap.toNat) :
    exec .encode s = .next ((s.ensureTable.writeDst out).succeed out.length) := by
  have hstream := (encodeStream_of_coded hcoded).trans (congrArg some hout.symm)
  simp only [exec, execEncode, codecOperandError_of_rangesPass hr, if_neg hne, ensureTable_table_eq, hstream,
    if_neg (Nat.not_lt.2 hfit)]

/-- ENCODE with a source symbol that has no code (R170). -/
theorem exec_encode_uncoded (hr : s.RangesPass) (hne : s.srcLen ≠ 0)
    (huncoded : ∃ b ∈ s.srcBytes, s.encodeTable.lookup b = none) :
    exec .encode s = .next (s.ensureTable.scrambleDst.raise .unknownSymbol) := by
  simp only [exec, execEncode, codecOperandError_of_rangesPass hr, if_neg hne, ensureTable_table_eq,
    encodeStream_of_uncoded huncoded]

/-- OUT_LEN holds a length that fits the destination. -/
theorem toNat_outLen_succeed {n : Nat} {w : Word} (h : n ≤ w.toNat) : (s.succeed n).outLen.toNat = n :=
  (BitVec.toNat_ofNat ..).trans (Nat.mod_eq_of_lt (by omega))

end

/-- What a successful ENCODE leaves, as one record: the completion, the table it used, the stream in DMEM. -/
theorem encoded_eq (s : State) (out : List Byte) :
    (s.ensureTable.writeDst out).succeed out.length =
      { s.completedOk with
        table := s.encodeTable, tblPresent := true
        mem := ((s.ensureTable.writeDst out).succeed out.length).mem
        outLen := ((s.ensureTable.writeDst out).succeed out.length).outLen } := by
  unfold State.encodeTable
  cases hp : s.tblPresent with
  | true => rw [ensureTable_of_present s hp, if_pos rfl, ← hp]; rfl
  | false => rw [ensureTable_of_absent s hp]; rfl

theorem readByte_encoded (s : State) (out : List Byte) (n a : Nat) :
    ((s.ensureTable.writeDst out).succeed n).readByte a =
      if s.dstAddr.toNat ≤ a ∧ a < s.dstAddr.toNat + out.length then out.getD (a - s.dstAddr.toNat) 0
      else s.readByte a := by
  have h := readByte_writeDst s.ensureTable out a
  rwa [ensureTable_dstAddr, readByte_ensureTable] at h

/-- Settles O29: the stream is written at DST_ADDR, and its bits are those of the framed codes and the padding. -/
theorem encodeWritesFramedStream : Obligations.EncodeWritesFramedStream := by
  unfold Obligations.EncodeWritesFramedStream
  intro s hr hne hcoded hfit
  obtain ⟨out, hout⟩ : ∃ out, out = pack (frame (s.encodeTable.codesOf s.srcBytes)) := ⟨_, rfl⟩
  have hlen : out.length = ((s.encodeTable.codesOf s.srcBytes).length + 2 + 7) / 8 := by
    rw [hout, length_pack, length_frame, byteCount]
  have hcap : out.length ≤ s.dstCap.toNat := hlen ▸ hfit
  have houtLen := toNat_outLen_succeed (s := s.ensureTable.writeDst out) hcap
  refine ⟨_, exec_encode_coded hr hne hcoded hout hcap, houtLen.trans hlen, fun j hj => ?_, fun a ha => ?_,
    encoded_eq s out⟩
  · rw [houtLen] at hj
    rw [readByte_encoded, if_pos (by omega), Nat.add_sub_cancel_left, hout, getLsbD_pack, padded_frame_getD]
    rwa [hout, length_pack] at hj
  · rw [houtLen] at ha
    rw [readByte_encoded, if_neg ha]

end Sys2Proof.Machine

/-! ## Built tables decode (R100, R106, R107) -/

namespace Sys2Proof.Machine

/-! ### Bookkeeping (R41, R100, R101) -/

theorem bookkept_emptyTable : emptyTable.Bookkept where
  count_eq := by simp only [lookup_emptyTable]; simp [emptyTable]
  empty_min := fun _ => ⟨rfl, rfl⟩
  min_le := fun s c h => by simp at h
  le_max := fun s c h => by simp at h
  min_mem := fun h => absurd rfl h
  max_mem := fun h => absurd rfl h

/-- The number of symbols with a code grows by one when a symbol without one is registered. -/
theorem length_filter_register {t : CodeTable} {y : Symbol} (c : Bits) (hy : t.lookup y = none) :
    (allSymbols.filter (fun s => ((t.register y c).lookup s).isSome)).length =
      (allSymbols.filter (fun s => (t.lookup s).isSome)).length + 1 := by
  have hnodup : (y :: allSymbols.filter (fun s => (t.lookup s).isSome)).Nodup :=
    (allSymbols_nodup.filter _).cons (by simp [hy])
  refine ((List.perm_ext_iff_of_nodup (allSymbols_nodup.filter _) hnodup).2 fun s => ?_).length_eq
  by_cases hs : s = y <;> simp [hs, mem_allSymbols]

/-- Registering a code for a symbol without one keeps the bookkeeping (R100). -/
theorem CodeTable.Bookkept.register {t : CodeTable} (ht : t.Bookkept) {y : Symbol} (c : Bits) (hy : t.lookup y = none) :
    (t.register y c).Bookkept := by
  have hself : (t.register y c).lookup y = some c := by simp
  have hother : ∀ {s d}, t.lookup s = some d → (t.register y c).lookup s = some d := fun {s d} h => by
    rw [lookup_register, if_neg fun e => by simp [e, hy] at h, h]
  have hcases : ∀ {s d}, (t.register y c).lookup s = some d → d = c ∨ t.count ≠ 0 ∧ t.lookup s = some d := by
    intro s d h
    rw [lookup_register] at h
    split at h
    · exact .inl (Option.some.inj h).symm
    · exact .inr ⟨fun h0 => by simp [ht.lookup_of_count_zero h0] at h, h⟩
  constructor
  case count_eq => rw [length_filter_register c hy, ← ht.count_eq, count_register]
  case empty_min => exact fun h => absurd h (Nat.succ_ne_zero _)
  case min_le =>
    intro s d h
    rw [minLen_register]
    obtain rfl | ⟨h0, h⟩ := hcases h
    · split <;> simp
    · rw [if_neg h0]
      exact (min_le_left ..).trans (ht.min_le s d h)
  case le_max =>
    intro s d h
    rw [maxLen_register]
    obtain rfl | ⟨h0, h⟩ := hcases h
    · split <;> simp
    · rw [if_neg h0]
      exact (ht.le_max s d h).trans (le_max_left ..)
  case min_mem =>
    intro _
    rw [minLen_register]
    split
    · exact ⟨y, c, hself, rfl⟩
    · rename_i h0
      obtain hle | hle := le_total t.minLen c.length
      · obtain ⟨s, d, h, hd⟩ := ht.min_mem h0
        exact ⟨s, d, hother h, by rw [hd, min_eq_left hle]⟩
      · exact ⟨y, c, hself, (min_eq_right hle).symm⟩
  case max_mem =>
    intro _
    rw [maxLen_register]
    split
    · exact ⟨y, c, hself, rfl⟩
    · rename_i h0
      obtain hle | hle := le_total c.length t.maxLen
      · obtain ⟨s, d, h, hd⟩ := ht.max_mem h0
        exact ⟨s, d, hother h, by rw [hd, max_eq_left hle]⟩
      · exact ⟨y, c, hself, (max_eq_right hle).symm⟩

/-! ### Paths of a tree (R106) -/

theorem PathTo.mem_symbols {tree : Tree} {c : Bits} {y : Symbol} (h : PathTo tree c y) : y ∈ tree.symbols := by
  induction h with
  | leaf => simp [Tree.symbols]
  | first _ _ _ ih => simp [Tree.symbols, ih]
  | second _ _ _ ih => simp [Tree.symbols, ih]

theorem exists_pathTo {tree : Tree} {y : Symbol} (h : y ∈ tree.symbols) : ∃ c, PathTo tree c y := by
  induction tree with
  | leaf s w =>
    obtain rfl := List.mem_singleton.1 h
    exact ⟨[], .leaf y w⟩
  | node w a b iha ihb =>
    obtain h | h := List.mem_append.1 h
    · exact (iha h).imp' _ fun _ => .first w b
    · exact (ihb h).imp' _ fun _ => .second w a

/-- The empty path leads to a leaf at the root only. -/
theorem PathTo.eq_leaf_of_nil {tree : Tree} {y : Symbol} (h : PathTo tree [] y) : ∃ w, tree = .leaf y w := by
  cases h with
  | leaf s w => exact ⟨w, rfl⟩

/-- A path that another path begins with leads to the same leaf: leaves have no children. -/
theorem PathTo.eq_of_prefix {tree : Tree} {c d : Bits} {a b : Symbol} (ha : PathTo tree c a) (hb : PathTo tree d b)
    (h : c <+: d) : a = b := by
  induction ha generalizing d with
  | leaf => cases hb; rfl
  | first w r _ ih =>
    cases hb with
    | first _ _ hb => exact ih hb (List.cons_prefix_cons.1 h).2
    | second _ _ hb => simp at h
  | second w l _ ih =>
    cases hb with
    | first _ _ hb => simp at h
    | second _ _ hb => exact ih hb (List.cons_prefix_cons.1 h).2

/-! ### The walk (R106) -/

/-- The walk leaves the entry of a symbol that is no leaf. -/
theorem lookup_walk_of_notMem {tree : Tree} {y : Symbol} (hy : y ∉ tree.symbols) (path : Bits) (t : CodeTable) :
    (walk tree path t).lookup y = t.lookup y := by
  induction tree generalizing path t with
  | leaf s w => rw [walk, lookup_register, if_neg (mt List.mem_singleton.2 hy)]
  | node w a b iha ihb =>
    rw [walk, ihb (mt (List.mem_append_right _) hy), iha (mt (List.mem_append_left _) hy)]

/-- The walk registers a leaf with the path to it, after the path walked before. -/
theorem lookup_walk_of_pathTo {tree : Tree} {d : Bits} {y : Symbol} (h : PathTo tree d y) (hnodup : tree.symbols.Nodup)
    (path : Bits) (t : CodeTable) : (walk tree path t).lookup y = some (path ++ d) := by
  induction h generalizing path t with
  | leaf => simp [walk]
  | first w b h ih =>
    obtain ⟨hna, -, hdisj⟩ := List.nodup_append'.1 hnodup
    rw [walk, lookup_walk_of_notMem (hdisj h.mem_symbols), ih hna, List.append_assoc, List.singleton_append]
  | second w a h ih =>
    rw [walk, ih (List.nodup_append'.1 hnodup).2.1, List.append_assoc, List.singleton_append]

/-- The codes a walk gives an empty table are the walk's path and the paths to the leaves. -/
theorem lookup_walk_emptyTable {tree : Tree} (hnodup : tree.symbols.Nodup) (path : Bits) (y : Symbol) (c : Bits) :
    (walk tree path emptyTable).lookup y = some c ↔ ∃ d, PathTo tree d y ∧ c = path ++ d := by
  constructor
  · intro h
    have hy : y ∈ tree.symbols := by
      by_contra hy
      simp [lookup_walk_of_notMem hy] at h
    obtain ⟨d, hd⟩ := exists_pathTo hy
    exact ⟨d, hd, Option.some.inj (h.symm.trans (lookup_walk_of_pathTo hd hnodup path emptyTable))⟩
  · rintro ⟨d, hd, rfl⟩
    exact lookup_walk_of_pathTo hd hnodup path emptyTable

/-- The walk keeps the bookkeeping when its leaves are distinct symbols without a code. -/
theorem CodeTable.Bookkept.walk {tree : Tree} (hnodup : tree.symbols.Nodup) {t : CodeTable} (ht : t.Bookkept)
    (path : Bits) (hfree : ∀ y ∈ tree.symbols, t.lookup y = none) : (walk tree path t).Bookkept := by
  induction tree generalizing path t with
  | leaf s w => exact ht.register path (hfree s (by simp [Tree.symbols]))
  | node w a b iha ihb =>
    obtain ⟨hna, hnb, hdisj⟩ := List.nodup_append'.1 hnodup
    refine ihb hnb (iha hna ht _ fun y hy => hfree y (List.mem_append_left _ hy)) _ fun y hy => ?_
    rw [lookup_walk_of_notMem fun ha => hdisj ha hy, hfree y (List.mem_append_right _ hy)]

/-! ### The tree of a source (R103, R104, R108) -/

/-- The leaves of the queue's trees (R104). -/
def queueSymbols (q : List QNode) : List Symbol := q.flatMap (fun x => x.tree.symbols)

theorem queueSymbols_perm {q q' : List QNode} (h : q.Perm q') : (queueSymbols q).Perm (queueSymbols q') :=
  h.flatMap_right _

theorem queueSymbols_initialQueue (src : List Byte) : queueSymbols (initialQueue src) = leafSymbols src := by
  simp [queueSymbols, initialQueue, List.flatMap_map, Tree.symbols, ← List.map_eq_flatMap]

/-- A merge keeps the leaves. -/
theorem queueSymbols_merge_perm {q q1 q2 : List QNode} {a b : QNode} (ha : popLeast q = some (a, q1))
    (hb : popLeast q1 = some (b, q2)) (seq w : Nat) :
    (queueSymbols (q2 ++ [⟨seq, .node w a.tree b.tree⟩])).Perm (queueSymbols q) := by
  have hpop : (a :: b :: q2).Perm q := ((popLeast_perm hb).cons a).trans (popLeast_perm ha)
  have hmerge : queueSymbols (q2 ++ [⟨seq, .node w a.tree b.tree⟩]) = queueSymbols (q2 ++ [a, b]) := by
    simp [queueSymbols, Tree.symbols]
  rw [hmerge]
  exact queueSymbols_perm (List.perm_append_comm.trans hpop)

/-- The merge loop keeps the leaves. -/
theorem queueSymbols_mergeLoop_perm (fuel seq : Nat) (q : List QNode) :
    (queueSymbols (mergeLoop fuel seq q)).Perm (queueSymbols q) := by
  obtain ⟨-, h⟩ := mergeLoop_induct (P := fun _ q' => (queueSymbols q').Perm (queueSymbols q))
    (fun _ _ _ _ _ _ hq ha hb => (queueSymbols_merge_perm ha hb _ _).trans hq) fuel seq q (.refl _)
  exact h

/-- A table built from a source with a symbol is the walk of a tree whose leaves are the source's symbols; no code is
empty, because the walk starts with the path "0" or its tree has two leaves at least. -/
theorem buildTable_eq_walk {src : List Byte} (hne : src ≠ []) :
    ∃ tree path, buildTable src = walk tree path emptyTable ∧ tree.symbols.Perm (leafSymbols src) ∧
      ∀ d y, PathTo tree d y → path ++ d ≠ [] := by
  obtain ⟨b, hb⟩ := List.exists_mem_of_ne_nil src hne
  match hl : leafSymbols src with
  | [] => simp [← mem_leafSymbols, hl] at hb
  | [y] =>
    refine ⟨.leaf y 0, [false], ?_, .refl _, by simp⟩
    simp only [buildTable, hl, walk]
  | y :: z :: rest =>
    have hq : initialQueue src ≠ [] := List.ne_nil_of_length_pos (by simp [initialQueue_length, hl])
    obtain ⟨root, hroot⟩ := mergeLoop_root (fuel := (leafSymbols src).length) (seq := (leafSymbols src).length) hq
      (by rw [initialQueue_length]; omega)
    have hperm := queueSymbols_mergeLoop_perm (leafSymbols src).length (leafSymbols src).length (initialQueue src)
    rw [hroot, queueSymbols_initialQueue, queueSymbols, List.flatMap_singleton, hl] at hperm
    refine ⟨root.tree, [], ?_, hperm, fun d y' hd => ?_⟩
    · rw [hl] at hroot
      simp only [buildTable, hl, hroot]
    · rintro rfl
      obtain ⟨w, hleaf⟩ := hd.eq_leaf_of_nil
      simpa [hleaf, Tree.symbols] using hperm.length_eq

/-- The symbols with a code are the source's (R107). -/
theorem lookup_buildTable_ne_none_iff (src : List Byte) (y : Symbol) : (buildTable src).lookup y ≠ none ↔ y ∈ src := by
  obtain rfl | hne := eq_or_ne src []
  · simp [buildTable_nil]
  · obtain ⟨tree, path, htable, hsym, -⟩ := buildTable_eq_walk hne
    have hnodup := hsym.nodup_iff.2 (leafSymbols_nodup src)
    rw [htable, ← mem_leafSymbols, ← hsym.mem_iff, Option.ne_none_iff_exists']
    simp only [lookup_walk_emptyTable hnodup]
    exact ⟨fun ⟨_, _, hd, _⟩ => hd.mem_symbols, fun hy => (exists_pathTo hy).imp' _ fun d hd => ⟨d, hd, rfl⟩⟩

/-- Built tables are bookkept (R41, R107). -/
theorem bookkept_buildTable (src : List Byte) : (buildTable src).Bookkept := by
  obtain rfl | hne := eq_or_ne src []
  · exact buildTable_nil ▸ bookkept_emptyTable
  · obtain ⟨tree, path, htable, hsym, -⟩ := buildTable_eq_walk hne
    rw [htable]
    exact bookkept_emptyTable.walk (hsym.nodup_iff.2 (leafSymbols_nodup src)) path fun y _ => lookup_emptyTable y

/-- Built tables decode: their codes are non-empty paths to distinct leaves of one tree (R107). -/
theorem decodes_buildTable (src : List Byte) : (buildTable src).Decodes := by
  obtain rfl | hne := eq_or_ne src []
  · rw [buildTable_nil]
    exact ⟨bookkept_emptyTable, by simp, fun a b ca cb ha => by simp at ha⟩
  · obtain ⟨tree, path, htable, hsym, hpath⟩ := buildTable_eq_walk hne
    have hlookup := lookup_walk_emptyTable (hsym.nodup_iff.2 (leafSymbols_nodup src)) path
    rw [← htable] at hlookup
    refine ⟨bookkept_buildTable src, fun y h => ?_, fun a b ca cb ha hb hp => ?_⟩
    · obtain ⟨d, hd, he⟩ := (hlookup y []).1 h
      exact hpath d y hd he.symm
    · obtain ⟨d, hd, rfl⟩ := (hlookup a ca).1 ha
      obtain ⟨e, he, rfl⟩ := (hlookup b cb).1 hb
      exact hd.eq_of_prefix he ((List.prefix_append_right_inj path).1 hp)

end Sys2Proof.Machine

/-! ## Encoding and decoding with one table (R163 to R165, R175, R181) -/

namespace Sys2Proof.Machine

/-! ### Decoding what was encoded -/

section
variable {t : CodeTable}

/-- On a table that decodes, a code at the front of a buffer is the match: of two codes that
start one buffer the shorter starts the longer, so both are one symbol's. -/
theorem CodeTable.Decodes.matchPrefix_append (ht : t.Decodes) {y : Symbol} {c : Bits} (hc : t.lookup y = some c)
    (rest : Bits) : t.matchPrefix id (c ++ rest) = some (y, c.length) := by
  refine (matchPrefix_eq_iff ht.bookkept (fun _ => rfl) _).2 ⟨c, hc, rfl, List.prefix_append c rest,
    fun y' c' hc' hp => ?_⟩
  have hy : y = y' := (List.prefix_or_prefix_of_prefix (List.prefix_append c rest) hp).elim
    (ht.prefixFree y y' c c' hc hc') (fun h => (ht.prefixFree y' y c' c hc' hc h).symm)
  obtain rfl : c = c' := Option.some.inj (hc.symm.trans (hy ▸ hc'))
  exact .inr ⟨rfl, hy ▸ le_rfl⟩

/-- The matches of a table that decodes consume the codes of a symbol list as that list. -/
theorem CodeTable.Decodes.consumes_codesOf (ht : t.Decodes) {syms : List Symbol} (h : ∀ y ∈ syms, t.lookup y ≠ none) :
    Consumes t (t.codesOf syms) syms [] := by
  induction syms with
  | nil => exact .done []
  | cons y syms ih =>
    obtain ⟨c, hc⟩ := Option.ne_none_iff_exists'.1 (h y (by simp))
    have hcodes : t.codesOf (y :: syms) = c ++ t.codesOf syms := by
      simp [CodeTable.codesOf, CodeTable.codeOf, hc]
    have hne : c ≠ [] := fun hnil => ht.nonempty y (hnil ▸ hc)
    rw [hcodes]
    refine .symbol (by simp [hne]) (ht.matchPrefix_append hc _) ?_
    rw [List.drop_left]
    exact ih fun x hx => h x (by simp [hx])

/-- A stream is decoded to its source by a table that decodes, if there is room (R165). -/
theorem CodeTable.Decodes.decodeStream_stream (ht : t.Decodes) {src : List Byte} (h : ∀ b ∈ src, t.lookup b ≠ none)
    {cap : Nat} (hcap : src.length ≤ cap) : decodeStream t cap (pack (frame (t.codesOf src))) = .ok src := by
  simp only [decodeStream, strip_pack_frame]
  exact (ht.consumes_codesOf h).decodeLoop_ok hcap

end

/-! ### The commands -/

/-- DECODE of a stream that decodes (R175). -/
theorem exec_decode_ok {s : State} (hr : s.RangesPass) (hne : s.srcLen ≠ 0) {out : List Symbol}
    (h : decodeStream s.table s.dstCap.toNat s.srcBytes = .ok out) :
    exec .decode s = .next ((s.writeDst out).succeed out.length) := by
  simp only [exec, execDecode, codecOperandError_of_rangesPass hr, if_neg hne, h]

/-- Reading back what was written to the destination. -/
theorem memRead_writeDst_succeed (s : State) (bs : List Byte) (n : Nat) :
    ((s.writeDst bs).succeed n).memRead s.dstAddr.toNat bs.length = bs := by
  refine List.ext_getElem (memRead_length ..) fun i hi hlt => ?_
  rw [memRead_getElem]
  have h := readByte_writeDst s bs (s.dstAddr.toNat + i)
  rw [if_pos (by omega), Nat.add_sub_cancel_left, List.getD_eq_getElem _ _ hlt] at h
  exact h

/-- With a table that decodes, DECODE of what ENCODE wrote gives the source back (R180, R181). -/
theorem exec_decode_encoded {s u : State} (ht : s.encodeTable.Decodes)
    (hcoded : ∀ b ∈ s.srcBytes, s.encodeTable.lookup b ≠ none) (hr : u.RangesPass) (htable : u.table = s.encodeTable)
    (hsrc : u.srcBytes = pack (frame (s.encodeTable.codesOf s.srcBytes))) (hcap : s.srcLen.toNat ≤ u.dstCap.toNat) :
    ∃ v, exec .decode u = .next v ∧ v.errCode = 0 ∧ v.outLen.toNat = s.srcLen.toNat ∧
      v.memRead u.dstAddr.toNat v.outLen.toNat = s.srcBytes := by
  have hlen : s.srcBytes.length = s.srcLen.toNat := length_srcBytes
  have hfit : s.srcBytes.length ≤ u.dstCap.toNat := hlen ▸ hcap
  have hune : u.srcLen ≠ 0 := fun h0 => by
    have := congrArg List.length hsrc
    rw [length_srcBytes, h0, length_pack, length_frame, byteCount] at this
    simp only [BitVec.ofNat_eq_ofNat, BitVec.toNat_ofNat, Nat.zero_mod] at this
    omega
  have hdec : decodeStream u.table u.dstCap.toNat u.srcBytes = .ok s.srcBytes := by
    rw [htable, hsrc]
    exact ht.decodeStream_stream hcoded hfit
  have houtLen := toNat_outLen_succeed (s := u.writeDst s.srcBytes) hfit
  refine ⟨_, exec_decode_ok hr hune hdec, rfl, houtLen.trans hlen, ?_⟩
  rw [houtLen, memRead_writeDst_succeed]

/-- Settles O37: the symbols with a code are those of `s1`, and a built table decodes; a symbol without a code ends
ENCODE with UnknownSymbol. -/
theorem sharedTableRoundTrip : Obligations.SharedTableRoundTrip := by
  unfold Obligations.SharedTableRoundTrip
  intro s1 s hr hne hpresent htable
  have henc : s.encodeTable = s.table := if_pos hpresent
  have hens : s.ensureTable = s := ensureTable_of_present s hpresent
  have hlookup : ∀ b, s.encodeTable.lookup b ≠ none ↔ b ∈ s1 := fun b => by
    rw [henc, htable, lookup_buildTable_ne_none_iff]
  refine ⟨fun hall hfit => ?_, fun ⟨b, hb, hnot⟩ => ?_⟩
  · have hcoded : ∀ b ∈ s.srcBytes, s.encodeTable.lookup b ≠ none := fun b hb => (hlookup b).2 (hall b hb)
    obtain ⟨out, hout⟩ : ∃ out, out = pack (frame (s.encodeTable.codesOf s.srcBytes)) := ⟨_, rfl⟩
    have hcap : out.length ≤ s.dstCap.toNat := by
      rwa [hout, length_pack, length_frame, byteCount, henc]
    refine ⟨_, exec_encode_coded hr hne hcoded hout hcap, rfl, fun u hur hutable husrc hucap => ?_⟩
    rw [toNat_outLen_succeed hcap, hens, memRead_writeDst_succeed, hout] at husrc
    rw [hens] at hutable
    exact exec_decode_encoded (henc ▸ htable ▸ decodes_buildTable s1) hcoded hur (hutable.trans henc.symm) husrc hucap
  · have hnone : s.encodeTable.lookup b = none := not_not.1 (mt (hlookup b).1 hnot)
    refine ⟨_, exec_encode_uncoded hr hne ⟨b, hb, hnone⟩, rfl, rfl, ?_⟩
    rw [hens]
    rfl

end Sys2Proof.Machine

/-! ## How a command ends with an error (R83, R190, R194 to R197) -/

namespace Sys2Proof.Machine

/-! ### The accept, and an illegal word -/

/-- The step of a CMD write while BUSY = 0 (R190). -/
theorem step_writeCmd {s : State} {w : Word} {rest : List Input} (hp : s.pending = none) (hr : s.rst = false)
    (hi : s.inputs = .host (.write 0x008 (.w32 w)) :: rest) :
    step s = .next (((s.setInputs rest).accept w).respond .done) := by
  rw [step_writeReg hr hi (by decide) (by decide), show regAt (0x008 : Word).toNat = .cmd from rfl]
  simp [State.putReg, hp]

/-- Settles O6: the write's register is CMD, and its write while idle is the accept. -/
theorem cmdWriteAccepts : Obligations.CmdWriteAccepts := by
  unfold Obligations.CmdWriteAccepts
  exact fun _ _ _ hp hr hi => step_writeCmd hp hr hi

/-- No command's word is one that R83 calls illegal. -/
theorem decode_ne_ok_of_illegal {w : Word} (h : w.toNat % 256 = 0 ∨ 8 ≤ w.toNat % 256 ∨ w.toNat / 256 ≠ 0)
    (i : Instr) : decode w ≠ .ok i := by
  intro hd
  rw [(decode_eq_ok_iff w i).1 hd] at h
  cases i <;> revert h <;> decide

/-- The engine completes a pending word that is no command's with BadCommand (R195). -/
theorem engineStep_illegal {s : State} {w : Word} (hp : s.pending = some w) (hd : ∀ i, decode w ≠ .ok i) :
    engineStep s = .next (s.raise .badCommand) := by
  cases h : decode w with
  | ok i => exact absurd h (hd i)
  | error e => exact engineStep_error hp h

/-- Settles O8: the write is accepted whatever its value, and the engine's turn raises BadCommand for a word that is no
command's. -/
theorem illegalWordIsBadCommand : Obligations.IllegalWordIsBadCommand := by
  unfold Obligations.IllegalWordIsBadCommand
  intro s w rest hillegal hp hr hi
  refine ⟨_, step_writeCmd hp hr hi, rfl, ?_⟩
  rw [step_engine (rest := rest) rfl, engineStep_illegal (w := w) rfl (decode_ne_ok_of_illegal hillegal)]
  rfl

/-! ### The operand checks of each command -/

/-- The error with which a command's operand checks end it, if they do (R194). -/
def operandError (s : State) : Instr → Option CmdError
  | .generate | .matchPrefix => if InRange s.params s.srcAddr s.srcLen then none else some .rangeError
  | .set =>
    if InRange s.params s.srcAddr s.srcLen ∧ InRange s.params s.valAddr s.valLen then none else some .rangeError
  | .get | .encode | .decode =>
    if InRange s.params s.srcAddr s.srcLen ∧ InRange s.params s.dstAddr s.dstCap then
      if Overlapping s.srcAddr s.srcLen s.dstAddr s.dstCap then some .overlap else none
    else some .rangeError
  | .clear => none

theorem operandError_eq_rangeError_iff (s : State) (i : Instr) :
    operandError s i = some .rangeError ↔
      (i ≠ .clear ∧ ¬ InRange s.params s.srcAddr s.srcLen) ∨
      (i = .set ∧ ¬ InRange s.params s.valAddr s.valLen) ∨
      (i ∈ [Instr.get, .encode, .decode] ∧ ¬ InRange s.params s.dstAddr s.dstCap) := by
  cases i <;> simp [operandError, ite_eq_iff, -not_or, -not_and, not_and_or]

theorem operandError_eq_overlap_iff (s : State) (i : Instr) :
    operandError s i = some .overlap ↔
      i ∈ [Instr.get, .encode, .decode] ∧ InRange s.params s.srcAddr s.srcLen ∧
        InRange s.params s.dstAddr s.dstCap ∧ Overlapping s.srcAddr s.srcLen s.dstAddr s.dstCap := by
  cases i <;> simp [operandError, ite_eq_iff, and_assoc]

/-- The errors that operand checks raise (R194). -/
def operandErrors : List CmdError := [.rangeError, .overlap]

theorem operandError_mem {s : State} {i : Instr} {e : CmdError} (h : operandError s i = some e) :
    e ∈ operandErrors := by
  unfold operandError at h
  repeat' split at h
  all_goals cases h <;> decide

/-- GET, ENCODE and DECODE share their operand checks (R125, R170, R175). -/
theorem operandError_codec (s : State) {i : Instr} (hi : i ∈ [Instr.get, .encode, .decode]) :
    operandError s i = codecOperandError s := by
  have hget : operandError s .get = codecOperandError s := by
    simp only [codecOperandError, operandError, Bool.not_eq_true', ← Bool.not_eq_true, srcOk_iff, dstOk_iff,
      srcDstOverlap_iff, ite_not, ite_and]
  simp only [List.mem_cons, List.not_mem_nil, or_false] at hi
  obtain rfl | rfl | rfl := hi <;> exact hget

/-- SET's operand checks come first, and its later checks raise neither of their errors (R120). -/
theorem operandError_set (s : State) : operandError s .set = (setError s).filter (· ∈ operandErrors) := by
  simp only [operandError, setError, Bool.not_eq_true', ← Bool.not_eq_true, srcOk_iff, valOk_iff, ite_not, ite_and]
  split_ifs <;> rfl

/-- The error GET ends with, if it does. -/
def getError (s : State) : Option CmdError :=
  match getCode s with
  | .error e => some e
  | .ok _ => none

/-- GET's operand checks come first, and its later checks raise neither of their errors (R125). -/
theorem operandError_get (s : State) : operandError s .get = (getError s).filter (· ∈ operandErrors) := by
  rw [operandError_codec s (by decide)]
  unfold codecOperandError getError getCode
  split_ifs
  case neg =>
    cases s.table.lookup s.entrySymbol with
    | none => rfl
    | some c => dsimp only; split_ifs <;> rfl
  all_goals rfl

/-- DECODE's late errors (R163 to R165). -/
theorem decodeStream_error_mem {t : CodeTable} {cap : Nat} {raw : List Byte} {e : CmdError}
    (h : decodeStream t cap raw = .error e) : e ∈ [CmdError.corruptStream, .capacityExceeded] := by
  unfold decodeStream at h
  split at h
  next e' hstrip =>
    cases h
    simp [strip_eq_error hstrip]
  next buf _ =>
    obtain ⟨out, hc, hl⟩ | ⟨out, rest, hc, rfl, hb, hm⟩ | ⟨out, rest, hc, hl, hb, hm⟩ := consumes_cases t cap buf
    · cases (hc.decodeLoop_ok hl).symm.trans h
    · cases (hc.decodeLoop_capacityExceeded hb hm).symm.trans h
      decide
    · cases (hc.decodeLoop_corruptStream hl hb hm).symm.trans h
      decide

/-! ### The endings of a command -/

/-- The ways in which a command can end in state `s`: without an error, by its operand checks, by a later check of SET
or GET, or by a late error of ENCODE or DECODE, which leaves free values in the destination (R194, R197). -/
inductive Ending (s : State) : Instr → State → Prop where
  | success {i : Instr} {t : State} (hop : operandError s i = none) (hcode : t.errCode = 0) : Ending s i t
  | operand {i : Instr} {e : CmdError} (hop : operandError s i = some e) : Ending s i (s.raise e)
  | entry {i : Instr} {e : CmdError} (hop : operandError s i = none) (hi : i ∈ [Instr.set, .get])
      (he : e ∉ operandErrors) : Ending s i (s.raise e)
  | encode {e : CmdError} (hop : operandError s .encode = none)
      (he : e ∈ [CmdError.unknownSymbol, .capacityExceeded]) : Ending s .encode (s.ensureTable.scrambleDst.raise e)
  | decode {e : CmdError} (hop : operandError s .decode = none)
      (he : e ∈ [CmdError.corruptStream, .capacityExceeded]) : Ending s .decode (s.scrambleDst.raise e)

/-- SET and GET raise their error at once, an operand check's or a later one. -/
theorem Ending.of_filter {s : State} {i : Instr} {e : CmdError} (hi : i ∈ [Instr.set, .get])
    (hop : operandError s i = (some e).filter (· ∈ operandErrors)) : Ending s i (s.raise e) := by
  by_cases he : e ∈ operandErrors
  · exact .operand (hop.trans (Option.filter_some_pos (decide_eq_true he)))
  · exact .entry (hop.trans (Option.filter_some_neg (by simpa using he))) hi he

/-- Every command ends in one of these ways. -/
theorem exec_ending {i : Instr} {s t : State} (h : exec i s = .next t) : Ending s i t := by
  cases i with
  | generate =>
    obtain ⟨hsrc, rfl⟩ | ⟨hsrc, rfl⟩ := execGenerate_cases h
    · exact .success (if_pos (srcOk_iff.1 hsrc)) rfl
    · exact .operand (if_neg (mt srcOk_iff.2 (Bool.eq_false_iff.1 hsrc)))
  | set =>
    have hop := operandError_set s
    obtain ⟨e, he, rfl⟩ | ⟨hnone, rfl⟩ := execSet_cases h
    · exact .of_filter (by decide) (by rw [hop, he])
    · exact .success (by rw [hop, hnone]; rfl) rfl
  | get =>
    have hop := operandError_get s
    obtain ⟨e, he, rfl⟩ | ⟨c, hok, rfl⟩ := execGet_cases h
    · exact .of_filter (by decide) (by rw [hop, getError, he])
    · exact .success (by rw [hop, getError, hok]; rfl) rfl
  | matchPrefix =>
    obtain ⟨hsrc, rfl⟩ | ⟨hsrc, -, rfl⟩ | ⟨_, _, hsrc, -, rfl⟩ := execMatchPrefix_cases h
    · exact .operand (if_neg (mt srcOk_iff.2 (Bool.eq_false_iff.1 hsrc)))
    · exact .success (if_pos (srcOk_iff.1 hsrc)) rfl
    · exact .success (if_pos (srcOk_iff.1 hsrc)) rfl
  | encode =>
    obtain ⟨_, hop, rfl⟩ | ⟨hop, -, rfl⟩ | ⟨hop, -, -, rfl⟩ | ⟨_, hop, -, -, -, rfl⟩ | ⟨_, hop, -, -, -, rfl⟩ :=
      execEncode_cases h <;> rw [← operandError_codec s (i := .encode) (by decide)] at hop
    · exact .operand hop
    · exact .success hop rfl
    · exact .encode hop (by decide)
    · exact .encode hop (by decide)
    · exact .success hop rfl
  | decode =>
    obtain ⟨_, hop, rfl⟩ | ⟨hop, -, rfl⟩ | ⟨_, hop, -, herr, rfl⟩ | ⟨_, hop, -, -, rfl⟩ :=
      execDecode_cases h <;> rw [← operandError_codec s (i := .decode) (by decide)] at hop
    · exact .operand hop
    · exact .success hop rfl
    · exact .decode hop (decodeStream_error_mem herr)
    · exact .success hop rfl
  | clear =>
    obtain rfl := execClear_cases h
    exact .success rfl rfl

/-! ### RangeError and Overlap -/

theorem errorCode_injective : Function.Injective errorCode := by
  intro a b h
  cases a <;> cases b <;> revert h <;> decide

theorem errorCode_ne_zero (e : CmdError) : errorCode e ≠ 0 := by
  cases e <;> decide

theorem errCode_raise (s : State) (e : CmdError) : (s.raise e).errCode = errorCode e := rfl

/-- ERR_CODE is that of RangeError or Overlap exactly when the operand checks raise that error. -/
theorem Ending.errCode_eq_iff {s t : State} {i : Instr} (h : Ending s i t) {e : CmdError} (he : e ∈ operandErrors) :
    t.errCode = errorCode e ↔ operandError s i = some e := by
  have later {u : State} {e' : CmdError} (hop : operandError s i = none) (he' : e' ∉ operandErrors) :
      (u.raise e').errCode = errorCode e ↔ operandError s i = some e := by
    rw [hop, errCode_raise, errorCode_injective.eq_iff]
    exact iff_of_false (fun heq => he' (heq ▸ he)) nofun
  cases h with
  | success hop hcode =>
    rw [hop, hcode]
    exact iff_of_false (errorCode_ne_zero e).symm nofun
  | operand hop => rw [hop, errCode_raise, errorCode_injective.eq_iff, Option.some.injEq]
  | entry hop _ he' => exact later hop he'
  | encode hop he' =>
    have hdisj : ∀ x ∈ [CmdError.unknownSymbol, .capacityExceeded], x ∉ operandErrors := by decide
    exact later hop (hdisj _ he')
  | decode hop he' =>
    have hdisj : ∀ x ∈ [CmdError.corruptStream, .capacityExceeded], x ∉ operandErrors := by decide
    exact later hop (hdisj _ he')

/-- Settles O10: the operand checks of a command come before its other checks, and no other check raises their errors. -/
theorem rangeAndOverlapChecks : Obligations.RangeAndOverlapChecks := by
  unfold Obligations.RangeAndOverlapChecks
  intro i s
  obtain ⟨t, ht⟩ := exec_total i s
  have hend := exec_ending ht
  exact ⟨t, ht, (hend.errCode_eq_iff (e := .rangeError) (by decide)).trans (operandError_eq_rangeError_iff s i),
    (hend.errCode_eq_iff (e := .overlap) (by decide)).trans (operandError_eq_overlap_iff s i)⟩

/-! ### The state after an error -/

/-- ENCODE had a table to build and ended with a late error (R197 a). -/
abbrev BuiltThenError (i : Instr) (s t : State) : Prop :=
  i = .encode ∧ s.tblPresent = false ∧ t.errCode ∈ [(4 : Byte), 9]

/-- ENCODE or DECODE ended with a late error (R197 b). -/
abbrev LateCodecError (i : Instr) (t : State) : Prop :=
  i ∈ [Instr.encode, .decode] ∧ t.errCode ∈ [(4 : Byte), 5, 9]

/-- DMEM after an error is as before, but for the free values that a late error leaves in the destination (R197 b). -/
abbrev MemoryAfterError (i : Instr) (s t : State) : Prop :=
  (∀ a, ¬ s.InDst a → t.readByte a = s.readByte a) ∧
  (LateCodecError i t → ∀ a, s.InDst a → t.readByte a = Config.freeByte s.draws a) ∧
  (¬ LateCodecError i t → t.mem = s.mem)

section
variable {i : Instr} {s t : State}

/-- A command that ends with an error raises it from a state whose source operands are unchanged. -/
theorem Ending.exists_raise (h : Ending s i t) (hne : t.errCode ≠ 0) :
    ∃ (u : State) (e : CmdError), t = u.raise e ∧ u.srcAddr = s.srcAddr ∧ u.srcLen = s.srcLen := by
  cases h with
  | success _ hcode => exact absurd hcode hne
  | operand => exact ⟨s, _, rfl, rfl, rfl⟩
  | entry => exact ⟨s, _, rfl, rfl, rfl⟩
  | encode => exact ⟨_, _, rfl, by simp, by simp⟩
  | decode => exact ⟨_, _, rfl, rfl, rfl⟩

/-- An operand check's error is none of the late ones. -/
theorem errorCode_operandError_not_late {e : CmdError} (hop : operandError s i = some e) :
    errorCode e ∉ [(4 : Byte), 5, 9] := by
  have hdisj : ∀ x ∈ operandErrors, errorCode x ∉ [(4 : Byte), 5, 9] := by decide
  exact hdisj e (operandError_mem hop)

/-- The table after an error is the one before, but for the table that ENCODE built (R197 a). -/
theorem Ending.table (h : Ending s i t) (hne : t.errCode ≠ 0) :
    (BuiltThenError i s t → t.tblPresent = true ∧ t.table = buildTable s.srcBytes) ∧
    (¬ BuiltThenError i s t → t.tblPresent = s.tblPresent ∧ t.table = s.table) := by
  cases h with
  | success _ hcode => exact absurd hcode hne
  | operand hop =>
    have hlate := errorCode_operandError_not_late hop
    have hsub : [(4 : Byte), 9] ⊆ [4, 5, 9] := by decide
    exact ⟨fun ⟨_, _, hmem⟩ => absurd (hsub hmem) hlate, fun _ => ⟨rfl, rfl⟩⟩
  | entry _ hi => exact ⟨fun ⟨henc, _⟩ => absurd (henc ▸ hi) (by decide), fun _ => ⟨rfl, rfl⟩⟩
  | @encode e _ he =>
    have hcode : ∀ x ∈ [CmdError.unknownSymbol, .capacityExceeded], errorCode x ∈ [(4 : Byte), 9] := by decide
    cases hp : s.tblPresent with
    | false => exact ⟨fun _ => by simp [hp], fun hn => absurd ⟨rfl, hp, hcode e he⟩ hn⟩
    | true => exact ⟨fun ⟨_, hf, _⟩ => absurd (hp.symm.trans hf) nofun, fun _ => by simp [hp]⟩
  | decode => exact ⟨nofun, fun _ => ⟨rfl, rfl⟩⟩

theorem memoryAfterError_of_scrambled (hread : ∀ a, t.readByte a = s.scrambleDst.readByte a)
    (hlate : LateCodecError i t) : MemoryAfterError i s t := by
  refine ⟨fun a ha => ?_, fun _ a ha => ?_, absurd hlate⟩
  · rw [hread, readByte_scrambleDst, if_neg ha]
  · rw [hread, readByte_scrambleDst, if_pos ha]

theorem Ending.memory (h : Ending s i t) (hne : t.errCode ≠ 0) : MemoryAfterError i s t := by
  cases h with
  | success _ hcode => exact absurd hcode hne
  | operand hop =>
    exact ⟨fun _ _ => rfl, fun ⟨_, hmem⟩ => absurd hmem (errorCode_operandError_not_late hop), fun _ => rfl⟩
  | entry _ hi =>
    have hdisj : ∀ x ∈ [Instr.set, .get], x ∉ [Instr.encode, .decode] := by decide
    exact ⟨fun _ _ => rfl, fun ⟨hmem, _⟩ => absurd hmem (hdisj i hi), fun _ => rfl⟩
  | @encode e _ he =>
    have hcode : ∀ x ∈ [CmdError.unknownSymbol, .capacityExceeded], errorCode x ∈ [(4 : Byte), 5, 9] := by decide
    exact memoryAfterError_of_scrambled (fun a => by simp [readByte_scrambleDst]) ⟨by decide, hcode e he⟩
  | @decode e _ he =>
    have hcode : ∀ x ∈ [CmdError.corruptStream, .capacityExceeded], errorCode x ∈ [(4 : Byte), 5, 9] := by decide
    exact memoryAfterError_of_scrambled (fun _ => rfl) ⟨by decide, hcode e he⟩

end

/-- Settles O12: an illegal word's error is raised at once; a command's ending says what of the table and of DMEM it
changed, and raising an error writes the completion and the results only. -/
theorem errorLeavesState : Obligations.ErrorLeavesState := by
  unfold Obligations.ErrorLeavesState
  refine ⟨fun s w hp hd hturn => ?_, fun i s t h hne => ?_⟩
  · rw [step_engineTurn hturn]
    exact engineStep_illegal (s := s.setInputs s.inputs.tail) hp hd
  · have hend := exec_ending h
    have hc := exec_completed h
    refine ⟨hend.table hne, hend.memory hne, ?_⟩
    obtain ⟨u, e, rfl, hsrcAddr, hsrcLen⟩ := hend.exists_raise hne
    exact ⟨⟨hsrcAddr, hsrcLen, hc.dstAddr, hc.dstCap, hc.valAddr, hc.valLen⟩, ⟨rfl, rfl, rfl⟩, hc.done,
      bne_iff_ne.2 hne, rfl, hc.intPend, hc.dropped, hc.intEn⟩

end Sys2Proof.Machine

/-! ## Reset, and host accesses while BUSY = 1 (R220, R223, R226, R227) -/

namespace Sys2Proof.Machine

/-! ### The reset state -/

/-- The parameters, DMEM, the level of `rst` and the model's own fields have no part in the reset state (R220). -/
theorem State.AtReset.of_core {s : State} (h : s.AtReset) (p : Params) (m : Memory) (b : Bool) (l : List Input)
    (r : Option Response) (n d : Nat) :
    State.AtReset { s with params := p, mem := m, rst := b, inputs := l, response := r, draws := n, dmemDraw := d } :=
  ⟨h.operands, h.results, h.status, h.interrupt, h.noEntry, h.counts, h.idle⟩

theorem atReset_reset : State.reset.AtReset :=
  ⟨by decide, by decide, by decide, by decide, lookup_emptyTable, by decide, rfl⟩

/-- Asserting `rst` takes the reset state, whatever was going on (R220). -/
theorem atReset_assertReset (s : State) : s.assertReset.AtReset := atReset_reset.of_core ..

theorem State.AtReset.setInputs {s : State} (h : s.AtReset) (l : List Input) : (s.setInputs l).AtReset := h.of_core ..

theorem State.AtReset.releaseReset {s : State} (h : s.AtReset) : s.releaseReset.AtReset := h.of_core ..

theorem State.AtReset.irq {s : State} (h : s.AtReset) : s.irq = false := by
  obtain ⟨-, hpend⟩ := h.interrupt
  simp [State.irq, hpend]

theorem State.AtReset.busy {s : State} (h : s.AtReset) : s.busy = false := by
  simp [h.idle]

/-- With nothing pending the engine's step changes nothing. -/
theorem engineStep_idle {s : State} (h : s.pending = none) : engineStep s = .next s := by
  simp [engineStep, h]

/-! ### Steps at the edges of `rst` and under it -/

section
variable {s : State}

/-- The step of an assertion of `rst`. -/
theorem step_rstAssert {rest : List Input} (hi : s.inputs = .rstAssert :: rest) :
    step s = .next (s.setInputs rest).assertReset := by
  simp [step, machineStep, hi, perform]

/-- The step of a release of `rst`. -/
theorem step_rstRelease {rest : List Input} (hi : s.inputs = .rstRelease :: rest) :
    step s = .next (s.setInputs rest).releaseReset := by
  simp [step, machineStep, hi, perform]

/-- A host transaction while `rst` is asserted stops the model (R223). -/
theorem step_host_underReset {x : Txn} (hr : s.rst = true) (hx : s.Hosts x) : step s = .fault .hostDuringReset := by
  obtain ⟨rest, hi⟩ := List.head?_eq_some_iff.1 hx
  simp [step, machineStep, hi, perform, hr]

/-- No step leaves the reset state while `rst` is asserted: the host has no step, the engine has nothing pending, and
the edges of `rst` take the reset state or keep it (R220). -/
theorem State.AtReset.of_step {t : State} (h : s.AtReset) (hr : s.rst = true) (hst : step s = .next t) : t.AtReset := by
  obtain ⟨-, he⟩ | ⟨rest, -, he⟩ | ⟨_, _, -, hlow, -⟩ | ⟨_, -, rfl⟩ | ⟨rest, -, rfl⟩ := step_cases hst
  · rw [engineStep_idle h.idle] at he
    cases he; exact h
  · rw [engineStep_idle (h.setInputs rest).idle] at he
    cases he; exact h.setInputs rest
  · simp [hr] at hlow
  · exact atReset_assertReset _
  · exact (h.setInputs rest).releaseReset

end

/-- Settles O46: an assertion takes the reset state from any state, every step under `rst` keeps it, and a release
changes only the level. -/
theorem resetTakesTheResetState : Obligations.ResetTakesTheResetState := by
  unfold Obligations.ResetTakesTheResetState
  refine ⟨atReset_reset, atReset_reset.irq, fun s rest => ⟨fun hi => ?_, fun hr h => ⟨fun t hst => ?_, fun hi => ?_⟩⟩⟩
  · have hat := atReset_assertReset (s.setInputs rest)
    exact ⟨_, step_rstAssert hi, hat, hat.irq, rfl, rfl, rfl⟩
  · have hat := h.of_step hr hst
    exact ⟨hat, hat.irq⟩
  · have hat := (h.setInputs rest).releaseReset
    exact ⟨_, step_rstRelease hi, hat, hat.busy, hat.irq, rfl, rfl⟩

/-- Settles O48: the event is performed under `rst`, where a host transaction is a fault. -/
theorem hostUnderResetHasNoStep : Obligations.HostUnderResetHasNoStep := by
  unfold Obligations.HostUnderResetHasNoStep
  exact fun _ _ => step_host_underReset

/-! ### What an offset names -/

/-- Every offset from 0x048 on is reserved in the register window (R36). -/
theorem regAt_reserved {n : Nat} (h : 0x048 ≤ n) : regAt n = .reserved := by
  unfold regAt
  split <;> simp at h ⊢

/-- The registers that a write while BUSY = 1 changes, by their offsets (R226). -/
theorem offset_of_busyWritable {n : Nat} (h : regAt n ∈ [HostReg.cmd, .intEn, .intPend]) :
    n ∈ [0x008, 0x040, 0x044] := by
  revert h
  unfold regAt
  split <;> simp

/-- An access beyond the register window that gets no error response names a DMEM location (R62, R66). -/
theorem target_of_not_badAccess {p : Params} {off : Word} {z : Size} (hoff : 0x100 ≤ off.toNat)
    (hok : ¬ BadAccess p off z) : target p off z = .dmem (off.toNat - 0x01000000) := by
  simp only [BadAccess, not_or, not_and_or, not_not] at hok
  exact target_dmem (by omega) (by omega) (by omega)

/-! ### Writes while BUSY = 1 (R226) -/

section
variable {s : State} (hb : s.busy = true)
include hb

/-- A CMD write is dropped, which DROPPED records. -/
theorem putReg_cmd_of_busy (v : Word) : s.putReg .cmd v = { s with dropped := true } := by
  simp only [State.putReg, hb, if_true]

/-- Operand, read-only and reserved registers ignore a write. -/
theorem putReg_of_busy {r : HostReg} (hr : r ∉ [HostReg.cmd, .intEn, .intPend]) (v : Word) : s.putReg r v = s := by
  cases r with
  | cmd | intEn | intPend => simp at hr
  | srcAddr | srcLen | dstAddr | dstCap | valAddr | valLen => simp only [State.putReg, hb, if_true]
  | _ => rfl

/-- A DMEM write is dropped with an ok response. -/
theorem hostWrite_dmem_of_busy {off : Word} {d : Datum} {loc : Nat}
    (ht : target s.params off (datumSize d) = .dmem loc) : s.hostWrite off d = s.respond .done := by
  simp only [State.hostWrite, ht, hb, if_true]

end

/-- INT_PEND after a write, by bit [0] of the value. -/
theorem putReg_intPend_eq_and (s : State) (v : Word) :
    s.putReg .intPend v = { s with intPend := s.intPend && !v.getLsbD 0 } := by
  rw [putReg_intPend, getLsbD_zero_eq_decide_odd]
  by_cases h : v.toNat % 2 = 1 <;> simp [h]

/-- Settles O56: CMD, INT_EN and INT_PEND are the registers that a write while busy changes, and an access beyond the
window that is no error is a DMEM write, which is dropped. -/
theorem writesWhileBusy : Obligations.WritesWhileBusy := by
  unfold Obligations.WritesWhileBusy
  refine fun s off v d rest hr hb => ⟨fun hi => ⟨?_, ?_, ?_, fun hlt hal hoff => ?_⟩, fun hi hwin hok => ?_⟩
  · rintro rfl
    rw [step_writeReg hr hi (by decide) (by decide), show regAt (0x008 : Word).toNat = .cmd from rfl,
      putReg_cmd_of_busy (s := s.setInputs rest) hb]
    rfl
  · rintro rfl
    rw [step_writeReg hr hi (by decide) (by decide)]
    rfl
  · rintro rfl
    rw [step_writeReg hr hi (by decide) (by decide), show regAt (0x044 : Word).toNat = .intPend from rfl,
      putReg_intPend_eq_and]
    rfl
  · have hreg : regAt off.toNat ∉ [HostReg.cmd, .intEn, .intPend] := fun hmem =>
      hoff (by simpa [← BitVec.toNat_inj] using offset_of_busyWritable hmem)
    rw [step_writeReg hr hi hlt hal, putReg_of_busy (s := s.setInputs rest) hb hreg]
    rfl
  · rw [step_host hi hr, State.hostTxn,
      hostWrite_dmem_of_busy (s := s.setInputs rest) hb (target_of_not_badAccess hwin hok)]
    rfl

/-! ### Reads while BUSY = 1 (R227) -/

/-- The fields of a STATUS word stand at their bits, bits [31:6] are zero (R26). -/
theorem statusBits_fields (busy done err matched present dropped : Bool) :
    let w := statusBits busy done err matched present dropped
    w.getLsbD 0 = busy ∧ w.getLsbD 1 = done ∧ w.getLsbD 2 = err ∧ w.getLsbD 3 = matched ∧ w.getLsbD 4 = present ∧
      w.getLsbD 5 = dropped ∧ w.toNat < 64 := by
  revert busy done err matched present dropped
  decide

@[simp] theorem datumSize_freeDatum (w : Word) (z : Size) : datumSize (freeDatum w z) = z := by
  cases z <;> rfl

/-- A free datum is the low part of its free word. -/
theorem datumNat_freeDatum (w : Word) (z : Size) : datumNat (freeDatum w z) = w.toNat % 2 ^ (8 * sizeBytes z) := by
  cases z with
  | b1 | b2 => exact BitVec.toNat_setWidth ..
  | b4 => exact (Nat.mod_eq_of_lt w.isLt).symm

/-- A register read changes the response and the draw counter only (R64). -/
theorem readReg_frame (s : State) (r : HostReg) :
    s.readReg r = { s with response := (s.readReg r).response, draws := (s.readReg r).draws } := by
  unfold State.readReg
  repeat' split
  all_goals rfl

/-- A host read changes the response and the draw counter only (R64). -/
theorem hostRead_frame (s : State) (off : Word) (z : Size) :
    s.hostRead off z = { s with response := (s.hostRead off z).response, draws := (s.hostRead off z).draws } := by
  unfold State.hostRead
  split
  · exact readReg_frame ..
  · split <;> rfl
  · rfl

/-- An aligned read in the register window reads its register (R62, R65). -/
theorem hostRead_reg (s : State) {off : Word} (hlt : off.toNat < 0x100) (hal : off.toNat % 4 = 0) :
    s.hostRead off .b4 = s.readReg (regAt off.toNat) := by
  simp only [State.hostRead, target_reg _ hlt hal]

section
variable {s : State} (hb : s.busy = true)
include hb

/-- A register whose value R227 leaves open uses one draw. -/
theorem readReg_of_open {r : HostReg} {v : Word} (h : s.busyRegValue r = some v) :
    s.readReg r = s.nextDraw.respond (.data (.w32 v)) := by
  simp only [State.readReg, hb, h, if_true]

/-- A DMEM read returns a free datum of its size and uses one draw. -/
theorem hostRead_dmem_of_busy {off : Word} {z : Size} {loc : Nat} (ht : target s.params off z = .dmem loc) :
    s.hostRead off z = s.nextDraw.respond (.data (freeDatum (Config.freeWord s.draws) z)) := by
  simp only [State.hostRead, ht, hb, if_true]

/-- The registers that read a free word, by their offsets. -/
theorem hostRead_freeWord {off : Word} (h : off ∈ [(0x010 : Word), 0x02C, 0x030, 0x034, 0x038, 0x03C]) :
    s.hostRead off .b4 = s.nextDraw.respond (.data (.w32 (Config.freeWord s.draws))) := by
  have hopen : off.toNat < 0x100 ∧ off.toNat % 4 = 0 ∧
      s.busyRegValue (regAt off.toNat) = some (Config.freeWord s.draws) := by
    simp only [List.mem_cons, List.not_mem_nil, or_false] at h
    obtain rfl | rfl | rfl | rfl | rfl | rfl := h <;> exact ⟨by decide, by decide, rfl⟩
  obtain ⟨hlt, hal, hval⟩ := hopen
  rw [hostRead_reg _ hlt hal, readReg_of_open hb hval]

/-- A STATUS read. -/
theorem hostRead_status :
    s.hostRead 0x00C .b4 = s.nextDraw.respond (.data (.w32 (s.statusWordBusy (Config.freeBit s.draws)))) := by
  rw [hostRead_reg _ (by decide) (by decide)]
  exact readReg_of_open hb rfl

end

/-- Settles O57: a read is framed whatever it reads; STATUS, the result registers and DMEM use a draw, every other
register reads its true value. -/
theorem readsWhileBusy : Obligations.ReadsWhileBusy := by
  unfold Obligations.ReadsWhileBusy
  intro s off size rest hr hb hi
  have hb' : (s.setInputs rest).busy = true := hb
  refine ⟨⟨_, step_host hi hr, hostRead_frame .., ?_, fun hmem hz => ?_, fun hwin hok => ?_⟩,
    fun hge hlt hal hz => ?_, fun v hmem hz => ?_⟩
  · rintro rfl rfl
    obtain ⟨hbusy, hdone, herr, hmatch, -, hdrop, hlt⟩ :=
      statusBits_fields true false false false (Config.freeBit s.draws) s.dropped
    rw [State.hostTxn, hostRead_status hb']
    exact ⟨_, rfl, hbusy, hdone, herr, hmatch, hdrop, hlt⟩
  · subst hz
    rw [State.hostTxn, hostRead_freeWord hb' hmem]
    exact ⟨rfl, Nat.lt_succ_self _⟩
  · rw [State.hostTxn, hostRead_dmem_of_busy hb' (target_of_not_badAccess hwin hok)]
    exact ⟨_, rfl, datumSize_freeDatum .., datumNat_freeDatum .., Nat.lt_succ_self _⟩
  · subst hz
    have hreg := regAt_reserved hge
    rw [step_readReg_of_not_open hr hi hlt hal (by rw [hreg]; rfl), hreg]
    rfl
  · subst hz
    simp only [List.mem_cons, Prod.mk.injEq, List.not_mem_nil, or_false] at hmem
    obtain ⟨rfl, rfl⟩ | ⟨rfl, rfl⟩ | ⟨rfl, rfl⟩ | ⟨rfl, rfl⟩ | ⟨rfl, rfl⟩ | ⟨rfl, rfl⟩ | ⟨rfl, rfl⟩ | ⟨rfl, rfl⟩ |
      ⟨rfl, rfl⟩ | ⟨rfl, rfl⟩ | ⟨rfl, rfl⟩ := hmem
    all_goals exact step_readReg_of_not_open hr hi (by decide) (by decide) rfl

end Sys2Proof.Machine

/-! ## The merge tree of a source (R102 to R108) -/

namespace Sys2Proof.Machine

/-! ### Leaves and lengths of paths -/

theorem Tree.length_symbols_pos (tree : Tree) : 0 < tree.symbols.length := by
  induction tree with
  | leaf s w => exact Nat.one_pos
  | node w a b iha _ =>
    rw [Tree.symbols, List.length_append]
    omega

/-- A path is shorter than the number of leaves: every step leaves a sibling with a leaf behind (R106). -/
theorem PathTo.length_lt {tree : Tree} {c : Bits} {y : Symbol} (h : PathTo tree c y) :
    c.length < tree.symbols.length := by
  induction h with
  | leaf => exact Nat.one_pos
  | first w b _ ih =>
    have := b.length_symbols_pos
    rw [Tree.symbols, List.length_append, List.length_cons]
    omega
  | second w a _ ih =>
    have := a.length_symbols_pos
    rw [Tree.symbols, List.length_append, List.length_cons]
    omega

theorem length_leafSymbols (src : List Byte) : (leafSymbols src).length = src.toFinset.card := by
  rw [← List.toFinset_card_of_nodup (leafSymbols_nodup src)]
  congr 1
  ext y
  simp [mem_leafSymbols]

theorem length_leafSymbols_le (src : List Byte) : (leafSymbols src).length ≤ 256 :=
  (List.length_filter_le ..).trans (by simp [allSymbols])

/-- TBL_COUNT of a built table is the number of its source's leaves (R41, R107). -/
theorem count_buildTable (src : List Byte) : (buildTable src).count = (leafSymbols src).length := by
  rw [(bookkept_buildTable src).count_eq, leafSymbols]
  refine congrArg List.length (List.filter_congr fun y _ => ?_)
  rw [Bool.eq_iff_iff, Option.isSome_iff_ne_none, lookup_buildTable_ne_none_iff, decide_eq_true_eq]
  exact List.count_pos_iff.symm

/-- The merge of two leaves and more ends with one root, whose walk is the table and whose leaves are the source's. -/
theorem buildTable_eq_walk_root {src : List Byte} (h : 2 ≤ (leafSymbols src).length) :
    ∃ root, mergeLoop (leafSymbols src).length (leafSymbols src).length (initialQueue src) = [root] ∧
      root.tree.symbols.Perm (leafSymbols src) ∧ buildTable src = walk root.tree [] emptyTable := by
  have hlen := initialQueue_length src
  obtain ⟨root, hroot⟩ := mergeLoop_root (fuel := (leafSymbols src).length) (seq := (leafSymbols src).length)
    (List.ne_nil_of_length_pos (by omega)) (by omega : (initialQueue src).length ≤ (leafSymbols src).length + 1)
  have hperm := queueSymbols_mergeLoop_perm (leafSymbols src).length (leafSymbols src).length (initialQueue src)
  rw [hroot, queueSymbols_initialQueue, queueSymbols, List.flatMap_singleton] at hperm
  refine ⟨root, hroot, hperm, ?_⟩
  match hl : leafSymbols src with
  | [] | [_] => simp [hl] at h
  | _ :: _ :: _ =>
    rw [hl] at hroot
    simp only [buildTable, hl, hroot]

/-- A code of a built table is the only symbol's "0", or has fewer bits than there are leaves (R107, R108). -/
theorem length_code_buildTable {src : List Byte} {y : Symbol} {c : Bits} (hc : (buildTable src).lookup y = some c) :
    c.length < (leafSymbols src).length ∨ (leafSymbols src).length = 1 ∧ c.length = 1 := by
  match hl : leafSymbols src with
  | [] => simp [buildTable, hl] at hc
  | [z] =>
    simp only [buildTable, hl, lookup_register, lookup_emptyTable] at hc
    split at hc
    · cases hc; exact .inr ⟨rfl, rfl⟩
    · cases hc
  | _ :: _ :: _ =>
    obtain ⟨root, -, hperm, htable⟩ := buildTable_eq_walk_root (src := src) (by simp [hl])
    rw [htable, lookup_walk_emptyTable (hperm.nodup_iff.2 (leafSymbols_nodup src))] at hc
    obtain ⟨d, hd, rfl⟩ := hc
    exact .inl (hl ▸ hperm.length_eq ▸ hd.length_lt)

/-- Settles O13: a built table decodes, its symbols are the source's, and its codes are paths in a tree of at most 256
leaves. -/
theorem builtTableIsPrefixFree : Obligations.BuiltTableIsPrefixFree := by
  unfold Obligations.BuiltTableIsPrefixFree
  intro src
  have hdecodes := decodes_buildTable src
  refine ⟨fun y => ?_, (count_buildTable src).trans (length_leafSymbols src), hdecodes.prefixFree, hdecodes.bookkept,
    fun y c hc => ?_⟩
  · rw [← Option.ne_none_iff_exists', lookup_buildTable_ne_none_iff]
  · have hpos : 1 ≤ c.length := List.length_pos_iff.2 fun hnil => hdecodes.nonempty y (hnil ▸ hc)
    have hlen := length_code_buildTable hc
    have hle := length_leafSymbols_le src
    rw [count_buildTable]
    omega

end Sys2Proof.Machine

/-! ## The merge order and the reference procedure (R104, R105) -/

namespace Sys2Proof.Machine

theorem before_iff (x y : QNode) :
    x.before y = true ↔ x.tree.weight < y.tree.weight ∨ x.tree.weight = y.tree.weight ∧ x.seq < y.seq :=
  decide_eq_true_iff

/-- The list order breaks ties of weight as the sequence numbers do. -/
def TiesBySeq (L : List QNode) : Prop :=
  L.Pairwise (fun x y => x.tree.weight = y.tree.weight → x.seq < y.seq)

/-- The reference procedure's sort, on queue nodes (R105). -/
abbrev sortByWeight (L : List QNode) : List QNode :=
  L.insertionSort (fun x y => x.tree.weight ≤ y.tree.weight)

/-- Inserting a node in front of its ties keeps a list sorted by key, if its sequence number is less than theirs. -/
theorem pairwise_before_orderedInsert {x : QNode} {L : List QNode} (hL : L.Pairwise (fun x y => x.before y = true))
    (hx : ∀ y ∈ L, x.tree.weight = y.tree.weight → x.seq < y.seq) :
    (L.orderedInsert (fun x y => x.tree.weight ≤ y.tree.weight) x).Pairwise (fun x y => x.before y = true) := by
  induction L with
  | nil => exact List.pairwise_singleton ..
  | cons z L ih =>
    obtain ⟨hz, hL'⟩ := List.pairwise_cons.1 hL
    rw [List.orderedInsert_cons]
    split
    case isTrue hle =>
      refine List.pairwise_cons.2 ⟨fun y hy => (before_iff ..).2 ?_, hL⟩
      have hzy : z.tree.weight ≤ y.tree.weight := by
        obtain rfl | hy := List.mem_cons.1 hy
        · exact le_rfl
        · have := (before_iff ..).1 (hz y hy)
          omega
      have := hx y hy
      omega
    case isFalse hgt =>
      refine List.pairwise_cons.2 ⟨fun y hy => ?_, ih hL' fun y hy => hx y (List.mem_cons_of_mem z hy)⟩
      obtain rfl | hy := (List.mem_orderedInsert ..).1 hy
      · exact (before_iff ..).2 (.inl (Nat.lt_of_not_le hgt))
      · exact hz y hy

/-- The stable sort by weight sorts by (weight, sequence number). -/
theorem pairwise_before_sortByWeight {L : List QNode} (h : TiesBySeq L) :
    (sortByWeight L).Pairwise (fun x y => x.before y = true) := by
  induction L with
  | nil => exact .nil
  | cons x L ih =>
    obtain ⟨hx, hL⟩ := List.pairwise_cons.1 h
    exact pairwise_before_orderedInsert (ih hL) fun y hy => hx y ((List.mem_insertionSort ..).1 hy)

/-- The first of a sorted list is what is popped from the queue, the others are what is left. -/
theorem popLeast_of_sorted {q M : List QNode} {m : QNode} (hM : (m :: M).Pairwise (fun x y => x.before y = true))
    (hperm : (m :: M).Perm q) : ∃ rest, popLeast q = some (m, rest) ∧ M.Perm rest := by
  obtain ⟨hm, -⟩ := List.pairwise_cons.1 hM
  match hpop : popLeast q with
  | none =>
    rw [popLeast_eq_none.1 hpop] at hperm
    simp at hperm
  | some (x, rest) =>
    have hpopped := popLeast_perm hpop
    obtain rfl : m = x := by
      by_contra hne
      have hx : x ∈ M := (List.mem_cons.1 (hperm.mem_iff.2 (hpopped.mem_iff.1 (by simp)))).resolve_left (Ne.symm hne)
      have hrest : m ∈ rest := (List.mem_cons.1 (hpopped.mem_iff.2 (hperm.mem_iff.1 (by simp)))).resolve_left hne
      exact Bool.false_ne_true ((popLeast_least hpop m hrest).symm.trans (hm x hx))
    exact ⟨rest, rfl, (hperm.trans hpopped.symm).cons_inv⟩

/-- A new node at the end has the greatest sequence number. -/
theorem TiesBySeq.concat {L : List QNode} (h : TiesBySeq L) {x : QNode} (hx : ∀ y ∈ L, y.seq < x.seq) :
    TiesBySeq (L ++ [x]) :=
  List.pairwise_append.2 ⟨h, List.pairwise_singleton .., fun y hy _ hz _ => List.mem_singleton.1 hz ▸ hx y hy⟩

/-- A list sorted by key has its ties in the order of the sequence numbers. -/
theorem tiesBySeq_of_sorted {L : List QNode} (h : L.Pairwise (fun x y => x.before y = true)) : TiesBySeq L := by
  refine h.imp fun {x y} hxy heq => ?_
  have := (before_iff ..).1 hxy
  omega

theorem map_sortByWeight (L : List QNode) :
    (L.map QNode.tree).insertionSort (fun a b => a.weight ≤ b.weight) = (sortByWeight L).map QNode.tree :=
  (List.map_insertionSort _ _ QNode.tree L fun _ _ _ _ => Iff.rfl).symm

/-- A queue that is a permutation of one node or none is that node or none. -/
theorem mergeLoop_of_perm_short {fuel seq : Nat} {q M : List QNode} (hM : M.Perm q) (hle : M.length ≤ 1) :
    mergeLoop fuel seq q = M := by
  rw [mergeLoop_short (hM.length_eq ▸ hle)]
  match M with
  | [] => exact hM.nil_eq.symm
  | [x] => exact hM.singleton_eq.symm

/-- The merge loop on a queue and the reference procedure on the same nodes, listed with their ties in the order of the
sequence numbers, make the same trees (R105). -/
theorem map_mergeLoop_eq_refMerge {fuel seq : Nat} {q L : List QNode} (hperm : L.Perm q) (hties : TiesBySeq L)
    (hseq : ∀ x ∈ L, x.seq < seq) (hfuel : L.length ≤ fuel + 1) :
    (mergeLoop fuel seq q).map QNode.tree = refMerge fuel (L.map QNode.tree) := by
  induction fuel generalizing seq q L with
  | zero =>
    rw [mergeLoop_of_perm_short hperm hfuel]
    rfl
  | succ fuel ih =>
    have hsorted := pairwise_before_sortByWeight hties
    have hsort : (sortByWeight L).Perm L := List.perm_insertionSort ..
    rw [refMerge, map_sortByWeight]
    match hM : sortByWeight L with
    | [] | [_] =>
      rw [mergeLoop_of_perm_short (hM ▸ hsort.trans hperm) (by simp)]
      rfl
    | a :: b :: rest =>
      rw [hM] at hsorted hsort
      obtain ⟨q1, ha, hq1⟩ := popLeast_of_sorted hsorted (hsort.trans hperm)
      obtain ⟨q2, hb, hq2⟩ := popLeast_of_sorted hsorted.of_cons hq1
      have hrest : ∀ x ∈ rest, x.seq < seq := fun x hx => hseq x (hsort.mem_iff.1 (by simp [hx]))
      have hlen := hsort.length_eq
      simp only [List.length_cons] at hlen
      rw [mergeLoop_two ha hb, ih (hq2.append_right _) ((tiesBySeq_of_sorted hsorted.of_cons.of_cons).concat hrest)
        (fun x hx => (List.mem_append.1 hx).elim (fun hx => (hrest x hx).trans_le seq.le_succ)
          fun hx => List.mem_singleton.1 hx ▸ Nat.lt_succ_self seq)
        (by simp only [List.length_append, List.length_singleton]; omega)]
      simp

/-! ### The initial queue and the weight of the root (R102, R103) -/

theorem map_seq_initialQueue (src : List Byte) :
    (initialQueue src).map QNode.seq = List.range (leafSymbols src).length := by
  simp [initialQueue, Function.comp_def, List.range_eq_range', ← List.zipIdx_map_snd]

theorem map_tree_initialQueue (src : List Byte) :
    (initialQueue src).map QNode.tree = (leafSymbols src).map (fun y => Tree.leaf y (src.count y)) := by
  conv_rhs => rw [← List.zipIdx_map_fst 0 (leafSymbols src), List.map_map]
  rw [initialQueue, List.map_map]
  rfl

theorem seq_lt_of_mem_initialQueue {src : List Byte} {x : QNode} (hx : x ∈ initialQueue src) :
    x.seq < (leafSymbols src).length :=
  List.mem_range.1 (map_seq_initialQueue src ▸ List.mem_map_of_mem hx)

theorem pairwise_seq_initialQueue (src : List Byte) : (initialQueue src).Pairwise (fun x y => x.seq < y.seq) :=
  List.pairwise_map.1 (map_seq_initialQueue src ▸ List.pairwise_lt_range)

theorem tiesBySeq_initialQueue (src : List Byte) : TiesBySeq (initialQueue src) :=
  (pairwise_seq_initialQueue src).imp fun {x y} hlt (_ : x.tree.weight = y.tree.weight) => hlt

/-- The weight of the whole queue. -/
def queueWeight (q : List QNode) : Nat := (q.map (fun x => x.tree.weight)).sum

theorem queueWeight_perm {q q' : List QNode} (h : q.Perm q') : queueWeight q = queueWeight q' :=
  (h.map _).sum_eq

/-- The leaves' frequencies add up to the length of the source. -/
theorem queueWeight_initialQueue (src : List Byte) : queueWeight (initialQueue src) = src.length := by
  have hmap : (initialQueue src).map (fun x => x.tree.weight) = (leafSymbols src).map (src.count ·) := by
    have := congrArg (List.map Tree.weight) (map_tree_initialQueue src)
    simpa [Function.comp_def, Tree.weight] using this
  have hset : (leafSymbols src).toFinset = src.toFinset := by ext y; simp [mem_leafSymbols]
  rw [queueWeight, hmap, ← List.sum_toFinset _ (leafSymbols_nodup src), hset, List.sum_toFinset_count_eq_length]

/-- The merge loop keeps the weight of the queue (R104). -/
theorem queueWeight_mergeLoop (fuel seq : Nat) (q : List QNode) : queueWeight (mergeLoop fuel seq q) = queueWeight q := by
  refine (mergeLoop_induct (P := fun _ q' => queueWeight q' = queueWeight q) ?_ fuel seq q rfl).elim fun _ h => h
  intro _ q' a q1 b q2 hq ha hb
  have hpop : (a :: b :: q2).Perm q' := ((popLeast_perm hb).cons a).trans (popLeast_perm ha)
  rw [← hq, ← queueWeight_perm hpop]
  simp only [queueWeight, List.map_append, List.map_cons, List.map_nil, List.sum_append, List.sum_cons, List.sum_nil,
    Tree.weight]
  omega

/-- Settles O15: the initial queue lists the leaves in the order of their sequence numbers, and the loop's root carries
the queue's weight. -/
theorem mergeOrderIsTheReference : Obligations.MergeOrderIsTheReference := by
  unfold Obligations.MergeOrderIsTheReference
  intro src h
  obtain ⟨root, hroot, -, htable⟩ := buildTable_eq_walk_root h
  have hmerge := map_mergeLoop_eq_refMerge (fuel := (leafSymbols src).length) (.refl (initialQueue src))
    (tiesBySeq_initialQueue src) (fun _ => seq_lt_of_mem_initialQueue)
    (by rw [initialQueue_length]; omega)
  rw [map_tree_initialQueue] at hmerge
  refine ⟨hmerge, root.tree, ?_, ?_, htable⟩
  · rw [← hmerge, hroot, List.map_singleton]
  · have hweight := queueWeight_mergeLoop (leafSymbols src).length (leafSymbols src).length (initialQueue src)
    rw [hroot, queueWeight_initialQueue] at hweight
    simpa [queueWeight] using hweight

end Sys2Proof.Machine

/-! ## Depths in the merge tree (the last sentence of R107) -/

namespace Sys2Proof.Machine

/-- `d` places a queue in the tree that its merges end with: it gives each sequence number the depth at which the node's
tree stands there. A node that is popped earlier stands no higher than a later one; and no node stands more than one
level below a node of at most twice the least weight, since no merge to come is lighter than that node. -/
structure Placement (q : List QNode) (root : Tree) (d : Nat → Nat) : Prop where
  path  : ∀ x ∈ q, ∃ p : Bits, p.length = d x.seq ∧ ∀ c y, PathTo x.tree c y → PathTo root (p ++ c) y
  order : ∀ x ∈ q, ∀ y ∈ q, x.before y = true → d y.seq ≤ d x.seq
  near  : ∀ y ∈ q, ∀ z ∈ q, (∀ u ∈ q, z.tree.weight ≤ 2 * u.tree.weight) → d y.seq ≤ d z.seq + 1

/-- The only node of a queue is the root. -/
theorem exists_placement_of_eq {q : List QNode} {root : QNode} (h : q = [root]) : ∃ d, Placement q root.tree d := by
  subst h
  exact ⟨fun _ => 0, fun _ hx => List.mem_singleton.1 hx ▸ ⟨[], rfl, fun _ _ hc => hc⟩, fun _ _ _ _ _ => le_rfl,
    fun _ _ _ _ _ => Nat.zero_le _⟩

/-- The order of the nodes in a queue has no part in a placement. -/
theorem Placement.of_perm {q q' : List QNode} {root : Tree} {d : Nat → Nat} (h : Placement q root d) (hp : q.Perm q') :
    Placement q' root d := by
  obtain ⟨hpath, horder, hnear⟩ := h
  simp only [hp.mem_iff] at hpath horder hnear
  exact ⟨hpath, horder, hnear⟩

/-- The node popped is before every other, when sequence numbers are distinct. -/
theorem before_of_popLeast {q rest : List QNode} {m : QNode} (hpop : popLeast q = some (m, rest))
    (hnodup : (q.map QNode.seq).Nodup) : ∀ x ∈ rest, m.before x = true := by
  intro x hx
  have hleast := popLeast_least hpop x hx
  have hnotMem := (List.nodup_cons.1 (((popLeast_perm hpop).map QNode.seq).nodup_iff.2 hnodup)).1
  have hne : m.seq ≠ x.seq := fun h => hnotMem (h ▸ List.mem_map_of_mem hx)
  rw [← Bool.not_eq_true, before_iff] at hleast
  rw [before_iff]
  omega

@[simp] theorem weight_node (w : Nat) (a b : Tree) : (Tree.node w a b).weight = w := rfl

/-- The depths before a merge: the nodes merged, `i` and `j`, stand one level below the node made of them. -/
def depthBefore (i j seq : Nat) (d : Nat → Nat) (k : Nat) : Nat :=
  if k = i ∨ k = j then d seq + 1 else d k

section
variable {a b : QNode} {q2 : List QNode} {seq : Nat} {root : Tree} {d : Nat → Nat}

/-- What depths before a merge are: of the two nodes merged, and of every other node. -/
theorem depthBefore_cases (hnodup : ((a :: b :: q2).map QNode.seq).Nodup) {x : QNode} (hx : x ∈ a :: b :: q2) :
    (x = a ∨ x = b) ∧ depthBefore a.seq b.seq seq d x.seq = d seq + 1 ∨
    x ∈ q2 ∧ depthBefore a.seq b.seq seq d x.seq = d x.seq := by
  simp only [List.map_cons, List.nodup_cons, List.mem_cons, not_or] at hnodup hx
  obtain ⟨⟨-, ha⟩, hb, -⟩ := hnodup
  obtain rfl | rfl | hx := hx
  · exact .inl ⟨.inl rfl, if_pos (.inl rfl)⟩
  · exact .inl ⟨.inr rfl, if_pos (.inr rfl)⟩
  · have hmem := List.mem_map_of_mem (f := QNode.seq) hx
    exact .inr ⟨hx, if_neg (not_or.2 ⟨fun h => ha (by rwa [h] at hmem), fun h => hb (by rwa [h] at hmem)⟩)⟩

/-- A placement after the merge of the two first nodes gives one before it. -/
theorem Placement.of_merge (hnodup : ((a :: b :: q2).map QNode.seq).Nodup) (hab : a.before b = true)
    (hb : ∀ x ∈ q2, b.before x = true) (hseq : ∀ x ∈ q2, x.seq < seq)
    (h : Placement (q2 ++ [⟨seq, .node (a.tree.weight + b.tree.weight) a.tree b.tree⟩]) root d) :
    Placement (a :: b :: q2) root (depthBefore a.seq b.seq seq d) := by
  obtain ⟨hpath, horder, hnear⟩ := h
  simp only [List.forall_mem_append, List.forall_mem_singleton, weight_node, before_iff] at hpath horder hnear hab hb
  obtain ⟨hpath, p, hp, hnew⟩ := hpath
  have hcases := fun {x} => depthBefore_cases (x := x) (seq := seq) (d := d) hnodup
  have hbelow : ∀ y ∈ q2, d y.seq ≤ d seq + 1 := fun y hy =>
    (hnear.1 y hy).2 ⟨fun u hu => by have := hb u hu; omega, by omega⟩
  refine ⟨fun x hx => ?_, fun x hx y hy hxy => ?_, fun y hy z hz hlight => ?_⟩
  · obtain ⟨rfl | rfl, hdx⟩ | ⟨hx, hdx⟩ := hcases hx <;> rw [hdx]
    · exact ⟨p ++ [false], by simp [hp], fun c y hc => by simpa using hnew _ _ (.first _ _ hc)⟩
    · exact ⟨p ++ [true], by simp [hp], fun c y hc => by simpa using hnew _ _ (.second _ _ hc)⟩
    · exact hpath x hx
  · rw [before_iff] at hxy
    obtain ⟨hx, hdx⟩ | ⟨hx, hdx⟩ := hcases hx <;> obtain ⟨hy, hdy⟩ | ⟨hy, hdy⟩ := hcases hy <;> rw [hdx, hdy]
    · exact hbelow y hy
    · have := hb x hx
      obtain rfl | rfl := hy <;> omega
    · exact (horder.1 x hx).1 y hy hxy
  · have hz2a := hlight a (by simp)
    obtain ⟨hy, hdy⟩ | ⟨hy, hdy⟩ := hcases hy <;> obtain ⟨hz, hdz⟩ | ⟨hz, hdz⟩ := hcases hz <;> rw [hdy, hdz]
    · exact Nat.le_succ _
    · refine Nat.succ_le_succ ((horder.1 z hz).2 ?_)
      have := hseq z hz
      omega
    · exact (hbelow y hy).trans (Nat.le_succ _)
    · exact (hnear.1 y hy).1 z hz ⟨fun u hu => by have := hb u hu; omega, by omega⟩

end

/-- The nodes of a queue have places in the root that the merge loop makes of it. -/
theorem exists_placement {fuel seq : Nat} {q : List QNode} {root : QNode} (hnodup : (q.map QNode.seq).Nodup)
    (hseq : ∀ x ∈ q, x.seq < seq) (hroot : mergeLoop fuel seq q = [root]) : ∃ d, Placement q root.tree d := by
  induction fuel generalizing seq q with
  | zero => exact exists_placement_of_eq hroot
  | succ fuel ih =>
    match ha : popLeast q with
    | none => exact exists_placement_of_eq (by simpa only [mergeLoop, ha] using hroot)
    | some (a, q1) =>
      match hb : popLeast q1 with
      | none => exact exists_placement_of_eq (by simpa only [mergeLoop, ha, hb] using hroot)
      | some (b, q2) =>
        have hpa := popLeast_perm ha
        have hpb := popLeast_perm hb
        have hperm : (a :: b :: q2).Perm q := (hpb.cons a).trans hpa
        have hnodup1 := ((hpa.map QNode.seq).nodup_iff.2 hnodup).of_cons
        have hnodup2 := ((hpb.map QNode.seq).nodup_iff.2 hnodup1).of_cons
        have hseq2 : ∀ x ∈ q2, x.seq < seq := fun x hx => hseq x (hperm.mem_iff.1 (by simp [hx]))
        have hnew : seq ∉ q2.map QNode.seq := fun h => by
          obtain ⟨x, hx, hxseq⟩ := List.mem_map.1 h
          exact (hseq2 x hx).ne hxseq
        rw [mergeLoop_two ha hb] at hroot
        obtain ⟨d, hd⟩ := ih (by simpa using hnodup2.append (List.nodup_singleton seq) (by simpa using hnew))
          (List.forall_mem_append.2 ⟨fun x hx => (hseq2 x hx).trans_le seq.le_succ, by simp⟩) hroot
        have hbefore := before_of_popLeast ha hnodup b (hpb.mem_iff.1 (by simp))
        exact ⟨_, (hd.of_merge ((hperm.map QNode.seq).nodup_iff.2 hnodup) hbefore (before_of_popLeast hb hnodup1)
          hseq2).of_perm hperm⟩

/-- A leaf's node in the initial queue (R103). -/
theorem exists_mem_initialQueue {src : List Byte} {y : Symbol} (hy : y ∈ src) :
    ∃ x ∈ initialQueue src, x.tree = .leaf y (src.count y) := by
  have hmem : Tree.leaf y (src.count y) ∈ (initialQueue src).map QNode.tree := by
    rw [map_tree_initialQueue]
    exact List.mem_map_of_mem ((mem_leafSymbols ..).2 hy)
  exact List.mem_map.1 hmem

/-- Settles O14: of two leaves the more frequent is popped later, so it stands no deeper. -/
theorem frequentSymbolsGetShortCodes : Obligations.FrequentSymbolsGetShortCodes := by
  unfold Obligations.FrequentSymbolsGetShortCodes
  intro src a b ca cb hca hcb hlt
  have ha : a ∈ src := (lookup_buildTable_ne_none_iff src a).1 (by simp [hca])
  have hb : b ∈ src := (lookup_buildTable_ne_none_iff src b).1 (by simp [hcb])
  have hne : a ≠ b := by
    rintro rfl
    exact lt_irrefl _ hlt
  have htwo : 2 ≤ (leafSymbols src).length := by
    rw [length_leafSymbols]
    exact Finset.one_lt_card.2 ⟨a, by simpa using ha, b, by simpa using hb, hne⟩
  obtain ⟨root, hroot, hperm, htable⟩ := buildTable_eq_walk_root htwo
  obtain ⟨d, hpath, horder, -⟩ := exists_placement (map_seq_initialQueue src ▸ List.nodup_range)
    (fun _ => seq_lt_of_mem_initialQueue) hroot
  have hdepth : ∀ {y c x}, (buildTable src).lookup y = some c → x ∈ initialQueue src →
      x.tree = .leaf y (src.count y) → c.length = d x.seq := by
    intro y c x hc hx hleaf
    obtain ⟨p, hp, hdown⟩ := hpath x hx
    have hy := lookup_walk_of_pathTo (hdown [] y (hleaf ▸ .leaf ..)) (hperm.nodup_iff.2 (leafSymbols_nodup src)) []
      emptyTable
    rw [← htable, hc, List.nil_append, List.append_nil] at hy
    rw [← hp, Option.some.inj hy]
  obtain ⟨xa, hxa, hla⟩ := exists_mem_initialQueue ha
  obtain ⟨xb, hxb, hlb⟩ := exists_mem_initialQueue hb
  rw [hdepth hca hxa hla, hdepth hcb hxb hlb]
  exact horder xb hxb xa hxa ((before_iff ..).2 (.inl (by rw [hla, hlb]; exact hlt)))

end Sys2Proof.Machine

/-! ## DECODE, and the round trip with ENCODE (R163 to R165, R170, R175, R180) -/

namespace Sys2Proof.Machine

/-! ### DECODE's outcomes -/

section
variable {s : State}

/-- A DECODE that passes its operand checks and fails later (R175). -/
theorem exec_decode_error (hr : s.RangesPass) (hne : s.srcLen ≠ 0) {e : CmdError}
    (h : decodeStream s.table s.dstCap.toNat s.srcBytes = .error e) :
    exec .decode s = .next (s.scrambleDst.raise e) := by
  simp only [exec, execDecode, codecOperandError_of_rangesPass hr, if_neg hne, h]

theorem decodeStream_of_strip {t : CodeTable} {cap : Nat} {raw : List Byte} {buf : Bits} (h : strip raw = .ok buf) :
    decodeStream t cap raw = decodeLoop t cap buf := by
  simp only [decodeStream, h]

theorem srcBytes_ne_nil (hne : s.srcLen ≠ 0) : s.srcBytes ≠ [] := by
  intro h
  have := congrArg List.length h
  rw [length_srcBytes, List.length_nil] at this
  exact hne (BitVec.eq_of_toNat_eq this)

/-- `t` is `s` after a command that wrote `bs` to the destination and changed nothing else. -/
abbrev WroteDst (s t : State) (bs : List Byte) : Prop :=
  t.outLen.toNat = bs.length ∧
  (∀ i y, bs[i]? = some y → t.readByte (s.dstAddr.toNat + i) = y) ∧
  (∀ a, ¬ (s.dstAddr.toNat ≤ a ∧ a < s.dstAddr.toNat + bs.length) → t.readByte a = s.readByte a) ∧
  t = { s.completedOk with mem := t.mem, outLen := t.outLen }

/-- The completion after a write to the destination that fits. -/
theorem wroteDst_succeed {bs : List Byte} (hfit : bs.length ≤ s.dstCap.toNat) :
    WroteDst s ((s.writeDst bs).succeed bs.length) bs := by
  refine ⟨toNat_outLen_succeed (s := s.writeDst bs) hfit, fun i y hy => ?_, fun a ha => ?_, rfl⟩
  · have hi := (List.getElem?_eq_some_iff.1 hy).1
    have hread := readByte_writeDst s bs (s.dstAddr.toNat + i)
    rw [if_pos (by omega), Nat.add_sub_cancel_left, List.getD_eq_getElem?_getD, hy] at hread
    exact hread
  · exact (readByte_writeDst s bs a).trans (if_neg ha)

/-- DECODE of a raw input whose stripped buffer the matches consume as `out` writes `out`, if it fits (R165, R175). -/
theorem exec_decode_consumes (hr : s.RangesPass) (hne : s.srcLen ≠ 0) {buf : Bits} (hstrip : strip s.srcBytes = .ok buf)
    {out : List Symbol} (hout : Consumes s.table buf out []) (hfit : out.length ≤ s.dstCap.toNat) :
    ∃ t, exec .decode s = .next t ∧ WroteDst s t out :=
  ⟨_, exec_decode_ok hr hne ((decodeStream_of_strip hstrip).trans (hout.decodeLoop_ok hfit)), wroteDst_succeed hfit⟩

end

/-- Settles O34: the raw input is stripped to the codes, which the matches of a table that decodes consume. -/
theorem decodeWritesSymbols : Obligations.DecodeWritesSymbols := by
  unfold Obligations.DecodeWritesSymbols
  intro s syms m k hr hne hdecodes hcoded hfit hm hk hraw
  have hstrip : strip s.srcBytes = .ok (s.table.codesOf syms) :=
    (strip_eq_ok_iff (srcBytes_ne_nil hne)).2 ⟨m, k, hm, hk, hraw⟩
  exact exec_decode_consumes hr hne hstrip (hdecodes.consumes_codesOf hcoded) hfit

/-- Settles O33: what the matches consume decides the loop's answer, which is DECODE's. -/
theorem decodeOfAnyTable : Obligations.DecodeOfAnyTable := by
  unfold Obligations.DecodeOfAnyTable
  intro s buf hr hne hstrip
  have hstream := decodeStream_of_strip (t := s.table) (cap := s.dstCap.toNat) hstrip
  refine ⟨fun out hout hfit => exec_decode_consumes hr hne hstrip hout hfit,
    fun out rest hout hrest => ⟨fun hfull hm => ?_, fun hfit hm => ?_⟩⟩
  · rw [← hfull, hout.decodeLoop_capacityExceeded hrest hm, hfull] at hstream
    exact ⟨_, exec_decode_error hr hne hstream, rfl, rfl⟩
  · rw [hout.decodeLoop_corruptStream hfit hrest hm] at hstream
    exact ⟨_, exec_decode_error hr hne hstream, rfl, rfl⟩

/-! ### The round trip (R180) -/

/-- Settles O36: ENCODE uses the table built from the source, absent or present, and a built table decodes. -/
theorem encodeThenDecodeIsIdentity : Obligations.EncodeThenDecodeIsIdentity := by
  unfold Obligations.EncodeThenDecodeIsIdentity
  intro s hr hne htable hfit
  have henc : s.encodeTable = buildTable s.srcBytes := by
    unfold State.encodeTable
    split
    case isTrue hp => exact htable.resolve_left (by simp [hp])
    case isFalse => rfl
  have hcoded : ∀ b ∈ s.srcBytes, s.encodeTable.lookup b ≠ none := fun b hb => by
    rwa [henc, lookup_buildTable_ne_none_iff]
  obtain ⟨out, hout⟩ : ∃ out, out = pack (frame (s.encodeTable.codesOf s.srcBytes)) := ⟨_, rfl⟩
  have hcap : out.length ≤ s.dstCap.toNat := by
    rwa [hout, length_pack, length_frame, byteCount, henc]
  have houtLen := toNat_outLen_succeed (s := s.ensureTable.writeDst out) hcap
  refine ⟨_, exec_encode_coded hr hne hcoded hout hcap, rfl, fun u hur hutable husrc hucap => ?_⟩
  have hmem := memRead_writeDst_succeed s.ensureTable out out.length
  rw [ensureTable_dstAddr] at hmem
  rw [houtLen, hmem, hout] at husrc
  exact exec_decode_encoded (henc ▸ decodes_buildTable s.srcBytes) hcoded hur (hutable.trans ensureTable_table_eq) husrc
    hucap

end Sys2Proof.Machine

/-! ## The order of the errors of GET, ENCODE and DECODE, and the ends of SET and GET (R120, R125, R164 to R175) -/

namespace Sys2Proof.Machine

/-! ### The operand checks of ENCODE and DECODE (R194, R196) -/

section
variable {s : State}

/-- ERR_CODE by the operand checks in their order, `later` being what the checks after them give. -/
theorem errorCode_codecOperandError (s : State) (later : Byte) :
    ((codecOperandError s).map errorCode).getD later =
      (if ¬ InRange s.params s.srcAddr s.srcLen then 7
       else if ¬ InRange s.params s.dstAddr s.dstCap then 7
       else if Overlapping s.srcAddr s.srcLen s.dstAddr s.dstCap then 8
       else later) := by
  simp only [codecOperandError, Bool.not_eq_true', ← Bool.not_eq_true, srcOk_iff, dstOk_iff, srcDstOverlap_iff]
  split_ifs <;> rfl

theorem codecOperandError_eq_none_iff : codecOperandError s = none ↔ s.RangesPass := by
  refine ⟨fun h => ?_, codecOperandError_of_rangesPass⟩
  unfold codecOperandError at h
  simp only [Bool.not_eq_true', ← Bool.not_eq_true, srcOk_iff, dstOk_iff, srcDstOverlap_iff] at h
  split_ifs at h with hsrc hdst hover
  exact ⟨hsrc, hdst, hover⟩

/-- An operand check that fails ends ENCODE at once. -/
theorem exec_encode_operandError {e : CmdError} (h : codecOperandError s = some e) :
    exec .encode s = .next (s.raise e) := by
  simp only [exec, execEncode, h]

/-- ENCODE of an empty source (R170). -/
theorem exec_encode_empty (hr : s.RangesPass) (h0 : s.srcLen = 0) : exec .encode s = .next (s.succeed 0) := by
  simp only [exec, execEncode, codecOperandError_of_rangesPass hr, if_pos h0]

/-- DECODE of an empty source (R175). -/
theorem exec_decode_empty (hr : s.RangesPass) (h0 : s.srcLen = 0) : exec .decode s = .next (s.succeed 0) := by
  simp only [exec, execDecode, codecOperandError_of_rangesPass hr, if_pos h0]

/-- ENCODE of a stream that does not fit (R170). -/
theorem exec_encode_full (hr : s.RangesPass) (hne : s.srcLen ≠ 0)
    (hcoded : ∀ b ∈ s.srcBytes, s.encodeTable.lookup b ≠ none)
    (hfull : s.dstCap.toNat < (pack (frame (s.encodeTable.codesOf s.srcBytes))).length) :
    exec .encode s = .next (s.ensureTable.scrambleDst.raise .capacityExceeded) := by
  simp only [exec, execEncode, codecOperandError_of_rangesPass hr, if_neg hne, ensureTable_table_eq,
    encodeStream_of_coded hcoded, if_pos hfull]

end

/-- ENCODE's table is retained after a late error (R170, R197 a). -/
theorem table_of_encode_error (s : State) (e : CmdError) :
    (s.ensureTable.scrambleDst.raise e).table = s.encodeTable ∧
      (s.ensureTable.scrambleDst.raise e).tblPresent = true := by
  simp [State.encodeTable]

/-- ENCODE's table is retained after its success (R170). -/
theorem table_of_encoded (s : State) (out : List Byte) (n : Nat) :
    ((s.ensureTable.writeDst out).succeed n).table = s.encodeTable ∧
      ((s.ensureTable.writeDst out).succeed n).tblPresent = true := by
  simp [State.encodeTable]

/-- Settles O28: an empty source range passes its check anywhere and overlaps nothing. -/
theorem emptyInputIsIdentity : Obligations.EmptyInputIsIdentity := by
  unfold Obligations.EmptyInputIsIdentity
  intro s h0 hdst
  have hr : s.RangesPass := ⟨.inl (by simp [h0]), hdst, fun ⟨hpos, _⟩ => by simp [h0] at hpos⟩
  exact ⟨exec_encode_empty hr h0, exec_decode_empty hr h0⟩

/-- Settles O30: ENCODE's checks after the operands', each with the ending it gives. -/
theorem encodeErrorOrder : Obligations.EncodeErrorOrder := by
  unfold Obligations.EncodeErrorOrder
  intro s
  rw [← errorCode_codecOperandError]
  cases hop : codecOperandError s with
  | some e =>
    refine ⟨_, exec_encode_operandError hop, rfl, fun hr => ?_⟩
    simp [codecOperandError_of_rangesPass hr] at hop
  | none =>
    have hr := codecOperandError_eq_none_iff.1 hop
    rw [Option.map_none, Option.getD_none]
    by_cases h0 : s.srcLen = 0
    · rw [if_pos h0]
      exact ⟨_, exec_encode_empty hr h0, rfl, fun _ hne => absurd h0 hne⟩
    · rw [if_neg h0]
      by_cases huncoded : ∃ b ∈ s.srcBytes, s.encodeTable.lookup b = none
      · rw [if_pos huncoded]
        exact ⟨_, exec_encode_uncoded hr h0 huncoded, rfl, fun _ _ => table_of_encode_error ..⟩
      · rw [if_neg huncoded]
        have hcoded : ∀ b ∈ s.srcBytes, s.encodeTable.lookup b ≠ none := fun b hb hnone => huncoded ⟨b, hb, hnone⟩
        obtain ⟨out, hout⟩ : ∃ out, out = pack (frame (s.encodeTable.codesOf s.srcBytes)) := ⟨_, rfl⟩
        have hlen : out.length = ((s.encodeTable.codesOf s.srcBytes).length + 2 + 7) / 8 := by
          rw [hout, length_pack, length_frame, byteCount]
        rw [← hlen]
        by_cases hfull : s.dstCap.toNat < out.length
        · rw [if_pos hfull]
          exact ⟨_, exec_encode_full hr h0 hcoded (hout ▸ hfull), rfl, fun _ _ => table_of_encode_error ..⟩
        · rw [if_neg hfull]
          exact ⟨_, exec_encode_coded hr h0 hcoded hout (Nat.not_lt.1 hfull), rfl, fun _ _ => table_of_encoded ..⟩

/-! ### DECODE's errors -/

/-- No sentinel stands in a first byte of zero (R164). -/
theorem strip_zero_cons (raw : List Byte) : strip (0 :: raw) = .error .corruptStream := rfl

/-- No sentinel stands in a last byte of zero (R164). -/
theorem strip_concat_zero (raw : List Byte) : strip (raw ++ [0]) = .error .corruptStream := by
  cases raw with
  | nil => rfl
  | cons first mid =>
    have hlast : last1 (bits8 0) = none := rfl
    simp only [strip, List.cons_append, List.getLast?_concat, hlast]
    split <;> rfl

/-- A single raw byte with one 1 bit has no second sentinel (R164). -/
theorem strip_singleton_two_pow {i : Nat} (hi : i < 8) : strip [BitVec.ofNat 8 (2 ^ i)] = .error .corruptStream := by
  interval_cases i <;> rfl

theorem strip_of_zero_end {raw : List Byte} (h : raw.head? = some 0 ∨ raw.getLast? = some 0) :
    strip raw = .error .corruptStream := by
  obtain h | h := h
  · obtain ⟨rest, rfl⟩ := List.head?_eq_some_iff.1 h
    exact strip_zero_cons rest
  · obtain ⟨init, rfl⟩ := List.getLast?_eq_some_iff.1 h
    exact strip_concat_zero init

/-- A bookkept table without a code counts none (R41). -/
theorem CodeTable.Bookkept.count_eq_zero {t : CodeTable} (h : t.Bookkept) (hnone : ∀ y, t.lookup y = none) :
    t.count = 0 := by
  simp [h.count_eq, hnone]

/-- A table that counts no code matches nothing (R131). -/
theorem matchPrefix_of_count_zero {t : CodeTable} (h0 : t.count = 0) (buf : Bits) : t.matchPrefix id buf = none :=
  if_pos h0

/-- DECODE changes neither the table nor TBL_PRESENT. -/
theorem exec_decode_table {s t : State} (h : exec .decode s = .next t) :
    t.table = s.table ∧ t.tblPresent = s.tblPresent := by
  obtain ⟨_, -, rfl⟩ | ⟨-, -, rfl⟩ | ⟨_, -, -, -, rfl⟩ | ⟨_, -, -, -, rfl⟩ := execDecode_cases h <;> exact ⟨rfl, rfl⟩

/-- Settles O35: an operand check's error is the one R194 asks for; past the checks a buffer that cannot be stripped, or
that is not empty on a table without codes, is CorruptStream. -/
theorem decodeErrorOrder : Obligations.DecodeErrorOrder := by
  unfold Obligations.DecodeErrorOrder
  intro s
  obtain ⟨t, ht, hrange, hoverlap⟩ := rangeAndOverlapChecks .decode s
  obtain ⟨htable, hpresent⟩ := exec_decode_table ht
  refine ⟨t, ht, htable, hpresent, fun h => hrange.2 ?_, fun hsrc hdst hov => hoverlap.2 ⟨by decide, hsrc, hdst, hov⟩,
    fun hr hne => ?_⟩
  · exact h.imp (fun hsrc => ⟨nofun, hsrc⟩) fun hdst => .inr ⟨by decide, hdst⟩
  · have hfails : decodeStream s.table s.dstCap.toNat s.srcBytes = .error .corruptStream →
        t.errCode = 5 ∧ t.outLen = 0 := fun h => by
      obtain rfl := Host.Outcome.next.inj (ht.symm.trans (exec_decode_error hr hne h))
      exact ⟨rfl, rfl⟩
    have hstrip : ∀ e, strip s.srcBytes = .error e → t.errCode = 5 ∧ t.outLen = 0 := fun e he =>
      hfails (by simp only [decodeStream, he, strip_eq_error he])
    refine ⟨hstrip, fun hend => (hstrip _ (strip_of_zero_end hend)).1,
      fun i hi hraw => (hstrip _ (hraw ▸ strip_singleton_two_pow hi)).1, fun hempty buf hbuf => ?_⟩
    have hcount : s.table.count = 0 := hempty.elim id fun ⟨hinv, habs⟩ =>
      hinv.bookkept.count_eq_zero (hinv.absent habs)
    have hstream := decodeStream_of_strip (t := s.table) (cap := s.dstCap.toNat) hbuf
    split
    case isTrue hnil =>
      rw [hnil, decodeLoop_nil] at hstream
      obtain rfl := Host.Outcome.next.inj (ht.symm.trans (exec_decode_ok hr hne hstream))
      rfl
    case isFalse hb =>
      rw [decodeLoop_no_match hb (matchPrefix_of_count_zero hcount buf)] at hstream
      exact (hfails hstream).1

/-! ### GET -/

/-- ERR_CODE of GET's first failing check, the checks in the order of R125. -/
theorem errorCode_getError (s : State) :
    ((getError s).map errorCode).getD 0 =
      (if ¬ InRange s.params s.srcAddr s.srcLen then 7
       else if ¬ InRange s.params s.dstAddr s.dstCap then 7
       else if Overlapping s.srcAddr s.srcLen s.dstAddr s.dstCap then 8
       else if s.srcLen ≠ 1 then 1
       else if s.table.lookup (s.readByte s.srcAddr.toNat) = none then 4
       else if s.dstCap.toNat < (s.table.codeOf (s.readByte s.srcAddr.toNat)).length then 9
       else 0) := by
  have hentry : s.readByte s.srcAddr.toNat = s.entrySymbol := rfl
  simp only [getError, getCode, Bool.not_eq_true', ← Bool.not_eq_true, srcOk_iff, dstOk_iff, srcDstOverlap_iff, hentry]
  cases hlookup : s.table.lookup s.entrySymbol with
  | none =>
    simp only [if_true]
    split_ifs <;> rfl
  | some c =>
    simp only [CodeTable.codeOf, hlookup, Option.getD_some, reduceCtorEq, if_false]
    split_ifs <;> rfl

/-- Settles O24: GET raises the error of its first failing check; an absent table holds no code. -/
theorem getErrorOrder : Obligations.GetErrorOrder := by
  unfold Obligations.GetErrorOrder
  intro s
  obtain ⟨t, ht⟩ := exec_total .get s
  have hget : t.errCode = ((getError s).map errorCode).getD 0 ∧ (t.errCode ≠ 0 → t.mem = s.mem ∧ t.outLen = 0) ∧
      t.table = s.table ∧ t.tblPresent = s.tblPresent := by
    obtain ⟨e, he, rfl⟩ | ⟨c, hc, rfl⟩ := execGet_cases ht
    · exact ⟨by rw [getError, he]; rfl, fun _ => ⟨rfl, rfl⟩, rfl, rfl⟩
    · exact ⟨by rw [getError, hc]; rfl, fun hne => absurd rfl hne, rfl, rfl⟩
  obtain ⟨hcode, hmem, htable, hpresent⟩ := hget
  rw [errorCode_getError] at hcode
  refine ⟨t, ht, hcode, hmem, htable, hpresent, fun hinv habs ⟨hsrc, hdst, hover⟩ h1 => ?_⟩
  rw [hcode, if_neg (not_not.2 hsrc), if_neg (not_not.2 hdst), if_neg hover, if_neg (not_not.2 h1),
    if_pos (hinv.absent habs _)]

/-- GET of a symbol with a code that fits (R125). -/
theorem exec_get_ok {s : State} {code : Bits} (hr : s.RangesPass) (h1 : s.srcLen = 1)
    (hcode : s.table.lookup s.entrySymbol = some code) (hfit : code.length ≤ s.dstCap.toNat) :
    exec .get s = .next ((s.writeDst (chars code)).succeed (chars code).length) := by
  obtain ⟨hsrc, hdst, hover⟩ := hr
  have hget : getCode s = .ok code := by
    simp [getCode, srcOk_iff.2 hsrc, dstOk_iff.2 hdst, Bool.eq_false_iff.2 (mt srcDstOverlap_iff.1 hover), h1, hcode,
      Nat.not_lt.2 hfit]
  simp only [exec, execGet, hget, length_chars]

/-- Settles O23: the code's characters are what GET writes to the destination. -/
theorem getWritesCodeCharacters : Obligations.GetWritesCodeCharacters := by
  unfold Obligations.GetWritesCodeCharacters
  intro s code hr h1 hcode hfit
  obtain ⟨hlen, hbytes, hother, hframe⟩ := wroteDst_succeed (s := s) (bs := chars code) (by rwa [length_chars])
  rw [length_chars code] at hother
  refine ⟨_, exec_get_ok hr h1 hcode hfit, hlen.trans (length_chars code), fun i b hb => hbytes i _ ?_, hother, hframe⟩
  simp [chars, hb, codeChar]

/-! ### SET -/

/-- SET of a value that passes every check (R120). -/
theorem exec_set_ok {s : State} (h : setError s = none) :
    exec .set s = .next ((s.setTable (s.table.register s.entrySymbol (bitsOfChars s.valBytes)) true).succeed 0) := by
  simp only [exec, execSet, h]

/-- Settles O21: every check of SET passes, and the code registered is read off the value's characters. -/
theorem setRegistersSymbol : Obligations.SetRegistersSymbol := by
  unfold Obligations.SetRegistersSymbol
  intro s hsrc hval h1 hnew hpos hmax hchars
  have hall : s.valBytes.all isCodeChar = true := by
    simpa [State.valBytes, State.memRead, isCodeChar] using hchars
  have hcheck : setError s = none := by
    have hlookup : s.table.lookup s.entrySymbol = none := hnew
    simp [setError, srcOk_iff.2 hsrc, valOk_iff.2 hval, h1, hlookup, hall, Nat.ne_of_gt hpos, Nat.not_lt.2 hmax]
  have hlen : (bitsOfChars s.valBytes).length = s.valLen.toNat := by simp [bitsOfChars, State.valBytes]
  refine ⟨_, bitsOfChars s.valBytes, exec_set_ok hcheck, hlen, fun i hi => ?_, fun y => lookup_register .., rfl,
    hlen ▸ rfl, hlen ▸ rfl, rfl⟩
  simp [bitsOfChars, State.valBytes, State.memRead, hi, beq_eq_decide]

end Sys2Proof.Machine

/-! ## What a command changes and what it leaves (R28 to R32, R81, R193) -/

namespace Sys2Proof.Machine

/-! ### The results of a command -/

theorem length_le_of_getCode {s : State} {c : Bits} (h : getCode s = .ok c) :
    s.RangesPass ∧ c.length ≤ s.dstCap.toNat := by
  unfold getCode at h
  simp only [Bool.not_eq_true', ← Bool.not_eq_true, srcOk_iff, dstOk_iff, srcDstOverlap_iff] at h
  split_ifs at h with hsrc hdst hover
  refine ⟨⟨hsrc, hdst, hover⟩, ?_⟩
  cases hlookup : s.table.lookup s.entrySymbol with
  | none => simp [hlookup] at h
  | some d =>
    simp only [hlookup] at h
    split_ifs at h with hfit
    cases h
    exact Nat.not_lt.1 hfit

theorem length_le_of_decodeStream {t : CodeTable} {cap : Nat} {raw : List Byte} {out : List Symbol}
    (h : decodeStream t cap raw = .ok out) : out.length ≤ cap := by
  unfold decodeStream at h
  split at h
  · cases h
  · exact (((decodeLoopConsumesTheBuffer t cap _).1 out).1 h).2

/-- The state in which a command leaves CORE, by command and by how it ends: everything that a command can do. -/
inductive CommandResult (s : State) : Instr → State → Prop where
  | raised (i : Instr) (e : CmdError) : CommandResult s i (s.raise e)
  | generated : CommandResult s .generate ((s.setTable (buildTable s.srcBytes) true).succeed 0)
  | registered (hcheck : setError s = none) :
    CommandResult s .set ((s.setTable (s.table.register s.entrySymbol (bitsOfChars s.valBytes)) true).succeed 0)
  | got {c : Bits} (hr : s.RangesPass) (hfit : c.length ≤ s.dstCap.toNat) :
    CommandResult s .get ((s.writeDst (chars c)).succeed c.length)
  | unmatched : CommandResult s .matchPrefix (s.setNoMatch.succeed 0)
  | matched (y : Symbol) {n : Nat} (hle : n ≤ s.srcLen.toNat) :
    CommandResult s .matchPrefix ((s.setMatch y n).succeed n)
  | empty {i : Instr} (hi : i ∈ [Instr.encode, .decode]) : CommandResult s i (s.succeed 0)
  | encodeFailed (e : CmdError) (hr : s.RangesPass) : CommandResult s .encode (s.ensureTable.scrambleDst.raise e)
  | encoded {out : List Byte} (hr : s.RangesPass) (hfit : out.length ≤ s.dstCap.toNat) :
    CommandResult s .encode ((s.ensureTable.writeDst out).succeed out.length)
  | decodeFailed (e : CmdError) (hr : s.RangesPass) : CommandResult s .decode (s.scrambleDst.raise e)
  | decoded {out : List Symbol} (hr : s.RangesPass) (hfit : out.length ≤ s.dstCap.toNat) :
    CommandResult s .decode ((s.writeDst out).succeed out.length)
  | cleared : CommandResult s .clear ((s.setTable emptyTable false).succeed 0)

/-- Every command leaves one of these results. -/
theorem exec_result {i : Instr} {s t : State} (h : exec i s = .next t) : CommandResult s i t := by
  cases i with
  | generate =>
    obtain ⟨-, rfl⟩ | ⟨-, rfl⟩ := execGenerate_cases h
    · exact .generated
    · exact .raised ..
  | set =>
    obtain ⟨_, -, rfl⟩ | ⟨hcheck, rfl⟩ := execSet_cases h
    · exact .raised ..
    · exact .registered hcheck
  | get =>
    obtain ⟨_, -, rfl⟩ | ⟨_, hc, rfl⟩ := execGet_cases h
    · exact .raised ..
    · obtain ⟨hr, hfit⟩ := length_le_of_getCode hc
      exact .got hr hfit
  | matchPrefix =>
    obtain ⟨-, rfl⟩ | ⟨-, -, rfl⟩ | ⟨y, _, -, hm, rfl⟩ := execMatchPrefix_cases h
    · exact .raised ..
    · exact .unmatched
    · exact .matched y (length_srcBytes ▸ matchPrefix_le hm)
  | encode =>
    obtain ⟨_, -, rfl⟩ | ⟨-, -, rfl⟩ | ⟨hop, -, -, rfl⟩ | ⟨_, hop, -, -, -, rfl⟩ | ⟨_, hop, -, -, hfit, rfl⟩ :=
      execEncode_cases h
    · exact .raised ..
    · exact .empty (by decide)
    · exact .encodeFailed _ (codecOperandError_eq_none_iff.1 hop)
    · exact .encodeFailed _ (codecOperandError_eq_none_iff.1 hop)
    · exact .encoded (codecOperandError_eq_none_iff.1 hop) hfit
  | decode =>
    obtain ⟨_, -, rfl⟩ | ⟨-, -, rfl⟩ | ⟨_, hop, -, -, rfl⟩ | ⟨_, hop, -, hout, rfl⟩ := execDecode_cases h
    · exact .raised ..
    · exact .empty (by decide)
    · exact .decodeFailed _ (codecOperandError_eq_none_iff.1 hop)
    · exact .decoded (codecOperandError_eq_none_iff.1 hop) (length_le_of_decodeStream hout)
  | clear =>
    obtain rfl := execClear_cases h
    exact .cleared

section
variable {s t : State} {i : Instr}

/-! ### DMEM (R29) -/

theorem mem_scrambleDst_ensureTable (s : State) : s.ensureTable.scrambleDst.mem = s.scrambleDst.mem := by
  simp [scrambleDst_eq]

/-- A command leaves DMEM or, being GET, ENCODE or DECODE with its operands in range, writes bytes that fit at
DST_ADDR. -/
theorem exec_mem (h : exec i s = .next t) :
    t.mem = s.mem ∨ i ∈ [Instr.get, .encode, .decode] ∧ s.RangesPass ∧
      ∃ bs : List Byte, bs.length ≤ s.dstCap.toNat ∧ t.mem = Memory.writeBytes s.mem s.dstAddr.toNat bs := by
  cases exec_result h with
  | got hr hfit => exact .inr ⟨by decide, hr, _, by rwa [length_chars], rfl⟩
  | encodeFailed e hr => exact .inr ⟨by decide, hr, _, by simp, mem_scrambleDst_ensureTable s⟩
  | encoded hr hfit => exact .inr ⟨by decide, hr, _, hfit, by simp⟩
  | decodeFailed e hr => exact .inr ⟨by decide, hr, _, by simp, rfl⟩
  | decoded hr hfit => exact .inr ⟨by decide, hr, _, hfit, rfl⟩
  | _ => exact .inl rfl

/-- What a byte holds depends on DMEM and on the draw of the last reset only. -/
theorem readByte_congr (hmem : t.mem = s.mem) (hdraw : t.dmemDraw = s.dmemDraw) (a : Nat) :
    t.readByte a = s.readByte a := by
  rw [State.readByte, State.readByte, hmem, hdraw]

/-- A byte that a command changes is one of GET's, ENCODE's or DECODE's destination (R29). -/
theorem exec_readByte_ne (h : exec i s = .next t) {a : Nat} (hne : t.readByte a ≠ s.readByte a) :
    i ∈ [Instr.get, .encode, .decode] ∧ s.InDst a := by
  have hdraw := (exec_completed h).dmemDraw
  obtain hmem | ⟨hi, -, bs, hfit, hmem⟩ := exec_mem h
  · exact absurd (readByte_congr hmem hdraw a) hne
  · refine ⟨hi, ?_⟩
    by_contra hout
    refine hne ((readByte_congr (s := s.writeDst bs) hmem hdraw a).trans ?_)
    rw [readByte_writeDst, if_neg (by unfold State.InDst at hout; omega)]

/-- Settles O38: a byte that a command changes is in the destination of a command that writes one. -/
theorem engineWritesOnlyDestination : Obligations.EngineWritesOnlyDestination := by
  unfold Obligations.EngineWritesOnlyDestination
  refine ⟨fun i s t h => ⟨fun a ha => ?_, fun hi a => ?_, (exec_completed h).dstAddr, (exec_completed h).dstCap⟩, rfl,
    rfl⟩
  · by_contra hne
    exact ha (exec_readByte_ne h hne).2
  · by_contra hne
    exact hi (exec_readByte_ne h hne).1

/-! ### Registers (R28 to R32) -/

/-- Only a MATCH that found a symbol changes SRC_ADDR and SRC_LEN (R28). -/
theorem exec_srcOperands (h : exec i s = .next t) (hno : ¬ (i = .matchPrefix ∧ t.matched = true)) :
    t.srcAddr = s.srcAddr ∧ t.srcLen = s.srcLen := by
  cases exec_result h with
  | matched => exact absurd ⟨rfl, rfl⟩ hno
  | encodeFailed | encoded => simp
  | _ => exact ⟨rfl, rfl⟩

/-- Settles O39: the registers are in the frame of every completion, but for the source operands. -/
theorem engineKeepsOtherRegisters : Obligations.EngineKeepsOtherRegisters := by
  unfold Obligations.EngineKeepsOtherRegisters
  intro i s t h
  have hc := exec_completed h
  exact ⟨hc.params, hc.valAddr, hc.valLen, hc.intEn, hc.dropped, hc.rst, hc.inputs, hc.response, hc.dmemDraw,
    exec_srcOperands h⟩

/-- OUT_LEN of a success is no more than the length it stands for. -/
theorem outLen_succeed_le {n m : Nat} (h : n ≤ m) : (s.succeed n).outLen.toNat ≤ m :=
  (BitVec.toNat_ofNat .. ▸ Nat.mod_le n _ : (BitVec.ofNat 32 n).toNat ≤ n).trans h

/-- Settles O40: OUT_LEN is 0 or the length of what fits, and RES_SYM is left or cleared by all but a MATCH that found a
symbol. -/
theorem resultRegistersAfterCommand : Obligations.ResultRegistersAfterCommand := by
  unfold Obligations.ResultRegistersAfterCommand
  intro i s t h
  cases exec_result h with
  | raised i e => exact ⟨fun _ => rfl, fun _ => Nat.zero_le _, fun _ => Nat.zero_le _, fun _ hne => absurd rfl hne⟩
  | encodeFailed e hr | decodeFailed e hr =>
    exact ⟨fun _ => rfl, fun _ => Nat.zero_le _, fun _ => Nat.zero_le _, fun _ hne => absurd rfl hne⟩
  | generated | registered | cleared =>
    exact ⟨fun _ => rfl, fun _ => Nat.zero_le _, fun _ => Nat.zero_le _, fun h0 hne => absurd h0 hne⟩
  | unmatched | empty =>
    exact ⟨fun _ => rfl, fun _ => Nat.zero_le _, fun _ => Nat.zero_le _, fun h0 hne => absurd h0 hne⟩
  | matched y hle =>
    exact ⟨by simp, by simp, fun _ => outLen_succeed_le hle, fun _ _ => ⟨rfl, rfl⟩⟩
  | got hr hfit | decoded hr hfit =>
    exact ⟨by simp, fun _ => outLen_succeed_le hfit, nofun, fun h0 hne => absurd h0 hne⟩
  | encoded hr hfit =>
    exact ⟨by simp, fun _ => outLen_succeed_le hfit, nofun, fun h0 hne => absurd (by simpa using h0) hne⟩

/-! ### Errors (R84, R193) -/

/-- A command ends with the completion record, with or without an error. -/
theorem exec_eq_complete (h : exec i s = .next t) : ∃ (u : State) (e : Option CmdError), t = u.complete e := by
  cases exec_result h <;> exact ⟨_, _, rfl⟩

/-- Settles O11: the order of the checks of SET, GET and ENCODE, and DECODE's operand checks and late errors, name the
errors. -/
theorem commandErrorSets : Obligations.CommandErrorSets := by
  unfold Obligations.CommandErrorSets
  intro i s t h
  cases i with
  | generate =>
    obtain ⟨-, rfl⟩ | ⟨-, rfl⟩ := execGenerate_cases h
    · exact .head _
    · exact .tail _ (.head _)
  | set =>
    obtain ⟨t', h', hcode, -⟩ := setErrorOrder s
    obtain rfl := Host.Outcome.next.inj (h.symm.trans h')
    rw [hcode]
    split_ifs <;> decide
  | get =>
    obtain ⟨t', h', hcode, -⟩ := getErrorOrder s
    obtain rfl := Host.Outcome.next.inj (h.symm.trans h')
    rw [hcode]
    split_ifs <;> decide
  | matchPrefix =>
    obtain ⟨-, rfl⟩ | ⟨-, -, rfl⟩ | ⟨_, _, -, -, rfl⟩ := execMatchPrefix_cases h
    · exact .tail _ (.head _)
    · exact .head _
    · exact .head _
  | encode =>
    obtain ⟨t', h', hcode, -⟩ := encodeErrorOrder s
    obtain rfl := Host.Outcome.next.inj (h.symm.trans h')
    rw [hcode]
    split_ifs <;> decide
  | decode =>
    have hoperand : ∀ e ∈ operandErrors, errorCode e ∈ [(0 : Byte), 7, 8, 5, 9] := by decide
    have hlate : ∀ e ∈ [CmdError.corruptStream, .capacityExceeded], errorCode e ∈ [(0 : Byte), 7, 8, 5, 9] := by decide
    cases exec_ending h with
    | success _ hcode => exact hcode ▸ .head _
    | operand hop => exact hoperand _ (operandError_mem hop)
    | entry _ hi => simp at hi
    | decode _ he => exact hlate _ he
  | clear =>
    obtain rfl := execClear_cases h
    exact .head _

end

end Sys2Proof.Machine

/-! ## The engine's turn (R83, R190, R191) -/

namespace Sys2Proof.Machine

/-! ### Legal and illegal words -/

/-- Settles O2: by the words of the seven commands. -/
theorem decodeOfEncode : Obligations.DecodeOfEncode := by
  unfold Obligations.DecodeOfEncode
  exact decode_encode

/-- The words from 1 to 7 are the commands' (R82). -/
theorem exists_eq_encode {w : Word} (h : cmdWordWf w = true) : ∃ i, w = encode i := by
  obtain ⟨hpos, hle⟩ := of_decide_eq_true h
  obtain ⟨n, hn⟩ : ∃ n, n = w.toNat := ⟨_, rfl⟩
  have hw : w = BitVec.ofNat 32 n := by simp [hn]
  rw [← hn] at hpos hle
  rw [hw]
  interval_cases n
  · exact ⟨.generate, rfl⟩
  · exact ⟨.set, rfl⟩
  · exact ⟨.get, rfl⟩
  · exact ⟨.matchPrefix, rfl⟩
  · exact ⟨.encode, rfl⟩
  · exact ⟨.decode, rfl⟩
  · exact ⟨.clear, rfl⟩

/-- Settles O3: a word is a command's encoding or one that R83 calls illegal, and no illegal word decodes. -/
theorem decodesExactlyTheLegalWords : Obligations.DecodesExactlyTheLegalWords := by
  unfold Obligations.DecodesExactlyTheLegalWords
  refine fun w => ⟨fun i => (decode_eq_ok_iff w i).1, fun ⟨e, he⟩ => ?_, fun h => ?_⟩
  · by_contra hlegal
    obtain ⟨i, rfl⟩ := exists_eq_encode (w := w) (decide_eq_true (by omega))
    cases he.symm.trans (decode_encode i)
  · cases hd : decode w with
    | ok i => exact absurd hd (decode_ne_ok_of_illegal h i)
    | error e => exact ⟨e, rfl⟩

/-! ### The turn -/

/-- Settles O4: the turn, or the empty list, is a step of the engine, which runs the command. -/
theorem stepRunsDecodedCommand : Obligations.StepRunsDecodedCommand := by
  unfold Obligations.StepRunsDecodedCommand
  refine fun s w i hp hd => ⟨fun rest hi => ?_, fun hi => ?_⟩
  · rw [step_engine hi]
    exact engineStep_ok (s := s.setInputs rest) hp hd
  · rw [step_nil hi, engineStep_ok hp hd]

/-- Settles O5: a turn of the engine stands in front, and the pending word is the command's. -/
theorem fetchedWordRunsNext : Obligations.FetchedWordRunsNext := by
  unfold Obligations.FetchedWordRunsNext
  intro s i
  have hword : BitVec.ofNat 32 ((encode i).toNat % 2 ^ 32) = encode i := by
    rw [Nat.mod_eq_of_lt (encode i).isLt, BitVec.ofNat_toNat, BitVec.setWidth_eq]
  rw [State.withFetchWord, hword, step_engine (rest := s.inputs) rfl, engineStep_ok (w := encode i) rfl (decode_encode i)]
  rfl

/-- The engine's step has an outcome: every command completes, and so does an illegal word. -/
theorem engineStep_total (s : State) : ∃ t, engineStep s = .next t := by
  cases hp : s.pending with
  | none => exact ⟨s, engineStep_idle hp⟩
  | some w =>
    cases hd : decode w with
    | ok i => rw [engineStep_ok hp hd]; exact exec_total i s
    | error e => exact ⟨_, engineStep_error hp hd⟩

/-- A step of the engine with a command pending ends with the completion record. -/
theorem engineStep_eq_complete {s t : State} (hp : s.pending.isSome) (h : engineStep s = .next t) :
    ∃ (u : State) (e : Option CmdError), t = u.complete e := by
  obtain ⟨hn, -⟩ | ⟨_, _, -, -, he⟩ | ⟨_, _, -, -, rfl⟩ := engineStep_cases h
  · simp [hn] at hp
  · exact exec_eq_complete he
  · exact ⟨_, _, rfl⟩

/-- The completion record sets ERR exactly when ERR_CODE is not 0 (R26). -/
theorem err_complete_iff (u : State) (e : Option CmdError) :
    (u.complete e).err = true ↔ (u.complete e).errCode ≠ 0 := by
  simp

/-- The error codes end at 9 (R84). -/
theorem errorCode_le (e : CmdError) : (errorCode e).toNat ≤ 9 := by
  cases e <;> decide

theorem errCode_complete_le (u : State) (e : Option CmdError) : (u.complete e).errCode.toNat ≤ 9 := by
  cases e with
  | none => exact Nat.zero_le 9
  | some e => exact errorCode_le e

/-- Settles O7: the engine's step always has an outcome, which is the completion record when a command is pending. -/
theorem engineStepCompletes : Obligations.EngineStepCompletes := by
  unfold Obligations.EngineStepCompletes
  refine fun s => ⟨fun hp rest hi => ?_, fun w hp hturn => ?_⟩
  · rw [step_engine hi, engineStep_idle (s := s.setInputs rest) hp]
    rfl
  · rw [step_engineTurn hturn]
    have hp' : (s.setInputs s.inputs.tail).pending = some w := hp
    obtain ⟨t, ht⟩ := engineStep_total (s.setInputs s.inputs.tail)
    have hc := engineStep_completed (by simp [hp]) ht
    refine ⟨fun i hd => engineStep_ok hp' hd, t, ht, by simp [hc.pending], hc.done, hc.intPend, ?_⟩
    obtain ⟨u, e, rfl⟩ := engineStep_eq_complete (by simp [hp]) ht
    exact ⟨err_complete_iff u e, errCode_complete_le u e⟩

end Sys2Proof.Machine

/-! ## Host accesses: registers read and written, error responses (R23 to R37, R62 to R66) -/

namespace Sys2Proof.Machine

/-! ### What an access names -/

section
variable {p : Params} {off : Word} {z : Size}

/-- An access that names a register is 4 bytes at a multiple of 4 of the register window (R62, R65). -/
theorem target_eq_reg {r : HostReg} (h : target p off z = .reg r) :
    off.toNat < 0x100 ∧ off.toNat % 4 = 0 ∧ z = .b4 ∧ r = regAt off.toNat := by
  unfold target at h
  split_ifs at h with hlt haccess
  obtain ⟨hz, hal⟩ := haccess
  exact ⟨hlt, hal, hz, (Target.reg.inj h).symm⟩

/-- An access that names a DMEM location is an aligned one of the DMEM window (R62, R66). -/
theorem target_eq_dmem {loc : Nat} (h : target p off z = .dmem loc) :
    off.toNat = 0x01000000 + loc ∧ loc < 2 ^ p.dmemLog2 ∧ off.toNat % sizeBytes z = 0 := by
  unfold target at h
  split_ifs at h with hlt _ hwin hal
  obtain rfl := Target.dmem.inj h
  simp only [dmemBase, dmemSize] at hwin ⊢
  omega

/-- The accesses that name nothing are those with an error response (R62, R65, R66). -/
theorem target_eq_unmapped_iff : target p off z = .unmapped ↔ BadAccess p off z := by
  constructor
  · intro h
    by_contra hok
    by_cases hlt : off.toNat < 0x100
    · have haccess : z = .b4 ∧ off.toNat % 4 = 0 := by
        by_contra hno
        exact hok (.inl ⟨hlt, not_and_or.1 hno⟩)
      rw [haccess.1, target_reg p hlt haccess.2] at h
      cases h
    · rw [target_of_not_badAccess (Nat.not_lt.1 hlt) hok] at h
      cases h
  · intro hbad
    match h : target p off z with
    | .unmapped => rfl
    | .reg r =>
      obtain ⟨hlt, hal, hz, -⟩ := target_eq_reg h
      have := Nat.two_pow_pos p.dmemLog2
      simp only [BadAccess, hz, hal, ne_eq, not_true, or_false, and_false, false_or] at hbad
      omega
    | .dmem loc =>
      obtain ⟨hoff, hloc, hal⟩ := target_eq_dmem h
      simp only [BadAccess, hal] at hbad
      omega

end

/-- The offset of a register (R23); no offset is the one of the reserved registers. -/
def regOffset : HostReg → Nat
  | .id => 0x000
  | .cfg => 0x004
  | .cmd => 0x008
  | .status => 0x00C
  | .errCode => 0x010
  | .srcAddr => 0x014
  | .srcLen => 0x018
  | .dstAddr => 0x01C
  | .dstCap => 0x020
  | .valAddr => 0x024
  | .valLen => 0x028
  | .outLen => 0x02C
  | .resSym => 0x030
  | .tblCount => 0x034
  | .minLen => 0x038
  | .maxLen => 0x03C
  | .intEn => 0x040
  | .intPend => 0x044
  | .reserved => 0x048

/-- An offset that names a register is the register's. -/
theorem eq_regOffset {n : Nat} (h : regAt n ≠ .reserved) : n = regOffset (regAt n) := by
  unfold regAt at h ⊢
  split
  case h_19 => simp at h
  all_goals rfl

/-! ### Responses (R63) -/

/-- A read that names something is answered with data of its size. -/
theorem hostRead_response {s : State} {off : Word} {z : Size} (h : target s.params off z ≠ .unmapped) :
    ∃ v, (s.hostRead off z).response = some (.data v) ∧ datumSize v = z := by
  unfold State.hostRead
  split
  next r hr =>
    obtain ⟨-, -, rfl, -⟩ := target_eq_reg hr
    unfold State.readReg
    repeat' split
    all_goals exact ⟨_, rfl, rfl⟩
  next loc hloc =>
    split
    · exact ⟨_, rfl, datumSize_freeDatum ..⟩
    · exact ⟨_, rfl, datumSize_readDatum ..⟩
  next hun => exact absurd hun h

/-- A write that names something is answered with an ok response. -/
theorem hostWrite_response {s : State} {off : Word} {d : Datum} (h : target s.params off (datumSize d) ≠ .unmapped) :
    (s.hostWrite off d).response = some .done := by
  match ht : target s.params off (datumSize d) with
  | .unmapped => exact absurd ht h
  | .reg r =>
    obtain ⟨-, -, hz, -⟩ := target_eq_reg ht
    match d with
    | .w32 v => simp only [State.hostWrite, ht]; rfl
    | .w8 _ | .w16 _ => cases hz
  | .dmem loc =>
    simp only [State.hostWrite, ht]
    split <;> rfl

/-- Settles O54: the accesses that name nothing are the bad ones, and every other access is answered. -/
theorem badAccessHasNoEffect : Obligations.BadAccessHasNoEffect := by
  unfold Obligations.BadAccessHasNoEffect
  refine fun s off size d rest hr => ⟨fun hi => ⟨fun hbad => ?_, fun hok => ?_⟩, fun hi => ⟨fun hbad => ?_, fun hok => ?_⟩⟩
  · exact step_read_unmapped hr hi (target_eq_unmapped_iff.2 hbad)
  · obtain ⟨v, hv⟩ := hostRead_response (s := s.setInputs rest) (mt target_eq_unmapped_iff.1 hok)
    exact ⟨_, v, step_host hi hr, hv⟩
  · exact step_write_unmapped hr hi (target_eq_unmapped_iff.2 hbad)
  · exact ⟨_, step_host hi hr, hostWrite_response (s := s.setInputs rest) (mt target_eq_unmapped_iff.1 hok)⟩

/-! ### Register reads while BUSY = 0 -/

/-- The step of an aligned register read while BUSY = 0 (R23, R64). -/
theorem step_readReg_of_idle {s : State} {off : Word} {rest : List Input} (hr : s.rst = false) (hp : s.pending = none)
    (hi : s.inputs = .host (.read off .b4) :: rest) (hlt : off.toNat < 0x100) (hal : off.toNat % 4 = 0) :
    step s = .next { s with inputs := rest, response := some (.data (.w32 (s.regValue (regAt off.toNat)))) } := by
  have hb : (s.setInputs rest).busy = false := by simp [hp]
  rw [step_readReg hr hi hlt hal, State.readReg, hb, regValue_setInputs]
  rfl

/-- Settles O50: the STATUS word's fields stand at their bits. -/
theorem statusReadsItsFields : Obligations.StatusReadsItsFields := by
  unfold Obligations.StatusReadsItsFields
  intro s rest hr hp hi
  exact ⟨s.statusWord, step_readReg_of_idle hr hp hi (by decide) (by decide), statusBits_fields ..⟩

/-- A bookkept table counts at most 256 symbols. -/
theorem CodeTable.Bookkept.count_le {t : CodeTable} (h : t.Bookkept) : t.count ≤ 256 :=
  h.count_eq ▸ (List.length_filter_le ..).trans (by simp [allSymbols])

/-- The lengths of a bookkept table of legal codes are at most CODE_LEN_MAX. -/
theorem CodeTable.Bookkept.lengths_le {t : CodeTable} (h : t.Bookkept) {p : Params} (hlegal : t.CodesLegal p) :
    t.minLen ≤ p.codeLenMax ∧ t.maxLen ≤ p.codeLenMax := by
  by_cases h0 : t.count = 0
  · obtain ⟨hmin, hmax⟩ := h.empty_min h0
    omega
  · obtain ⟨_, c, hc, hmin⟩ := h.min_mem h0
    obtain ⟨_, d, hd, hmax⟩ := h.max_mem h0
    obtain ⟨-, hcle⟩ := of_decide_eq_true (hlegal _ c hc)
    obtain ⟨-, hdle⟩ := of_decide_eq_true (hlegal _ d hd)
    omega

/-- In a state with the invariant the table's numbers fit their registers (R9). -/
theorem Invariant.table_lt {s : State} (h : Invariant s) :
    s.table.count < 2 ^ 32 ∧ s.table.minLen < 2 ^ 32 ∧ s.table.maxLen < 2 ^ 32 := by
  have hcount := h.bookkept.count_le
  obtain ⟨hmin, hmax⟩ := h.bookkept.lengths_le h.codesLegal
  obtain ⟨-, -, -, hcode⟩ := (params_wf_iff _).1 h.params
  omega

theorem toNat_setWidth_byte (b : Byte) : (b.setWidth 32).toNat = b.toNat := by
  simp; omega

theorem toNat_ite_bool (b : Bool) : (if b then (1 : Word) else 0).toNat = b.toNat := by
  cases b <;> rfl

/-- Settles O51: every register reads its value; the table's numbers are read modulo 2^32, which the invariant makes
exact. -/
theorem resultRegistersRead : Obligations.ResultRegistersRead := by
  unfold Obligations.ResultRegistersRead
  intro s rest off hr hp hi n hn
  have hread : off.toNat < 0x100 → off.toNat % 4 = 0 → (s.regValue (regAt off.toNat)).toNat = n →
      ∃ w : Word, step s = .next { s with inputs := rest, response := some (.data (.w32 w)) } ∧ w.toNat = n :=
    fun hlt hal hval => ⟨_, step_readReg_of_idle hr hp hi hlt hal, hval⟩
  simp only [List.mem_cons, Prod.mk.injEq, List.not_mem_nil, or_false] at hn
  obtain (⟨rfl, rfl⟩ | ⟨rfl, rfl⟩ | ⟨rfl, rfl⟩ | ⟨rfl, rfl⟩ | ⟨rfl, rfl⟩ | ⟨rfl, rfl⟩ | ⟨rfl, rfl⟩ | ⟨rfl, rfl⟩) |
    ⟨hinv, ⟨rfl, rfl⟩ | ⟨rfl, rfl⟩ | ⟨rfl, rfl⟩⟩ := hn <;> refine hread (by decide) (by decide) ?_
  · exact toNat_setWidth_byte s.errCode
  · rfl
  · exact toNat_setWidth_byte s.resSym
  · exact BitVec.toNat_ofNat ..
  · exact BitVec.toNat_ofNat ..
  · exact BitVec.toNat_ofNat ..
  · exact toNat_ite_bool s.intEn
  · exact toNat_ite_bool s.intPend
  · obtain ⟨hlt, -, -⟩ := hinv.table_lt
    rw [← hinv.bookkept.count_eq]
    exact (BitVec.toNat_ofNat ..).trans (Nat.mod_eq_of_lt hlt)
  · obtain ⟨-, hlt, -⟩ := hinv.table_lt
    exact (BitVec.toNat_ofNat ..).trans (Nat.mod_eq_of_lt hlt)
  · obtain ⟨-, -, hlt⟩ := hinv.table_lt
    exact (BitVec.toNat_ofNat ..).trans (Nat.mod_eq_of_lt hlt)

/-! ### Operand, read-only and reserved registers -/

@[simp] theorem regValue_respond (s : State) (x : Response) (r : HostReg) : (s.respond x).regValue r = s.regValue r := by
  cases r <;> rfl

/-- The operand registers (R28 to R30). -/
def operandRegs : List HostReg := [.srcAddr, .srcLen, .dstAddr, .dstCap, .valAddr, .valLen]

/-- The operand offsets are aligned ones of the window and name the operand registers. -/
theorem regAt_operandOffsets {off : Word} (h : off ∈ operandOffsets) :
    off.toNat < 0x100 ∧ off.toNat % 4 = 0 ∧ regAt off.toNat ∈ operandRegs := by
  simp only [operandOffsets, List.mem_cons, List.not_mem_nil, or_false] at h
  obtain rfl | rfl | rfl | rfl | rfl | rfl := h <;> decide

section
variable {s : State} {r : HostReg}

/-- Operand registers ignore a write while BUSY = 1 (R37). -/
theorem putReg_operand_of_busy (hr : r ∈ operandRegs) (hb : s.busy = true) (v : Word) : s.putReg r v = s := by
  have hdisj : ∀ r ∈ operandRegs, r ∉ [HostReg.cmd, .intEn, .intPend] := by decide
  exact putReg_of_busy hb (hdisj r hr) v

/-- An operand register takes the value written while BUSY = 0 (R37). -/
theorem regValue_putReg_operand (hr : r ∈ operandRegs) (hb : s.busy = false) (v : Word) :
    (s.putReg r v).regValue r = v := by
  cases r with
  | srcAddr | srcLen | dstAddr | dstCap | valAddr | valLen =>
    simp only [State.putReg, hb, Bool.false_eq_true, if_false, State.regValue]
  | _ => simp [operandRegs] at hr

/-- A write to an operand register changes operand registers only. -/
theorem putReg_operand_frame (hr : r ∈ operandRegs) (v : Word) :
    s.putReg r v =
      { s with srcAddr := (s.putReg r v).srcAddr, srcLen := (s.putReg r v).srcLen, dstAddr := (s.putReg r v).dstAddr,
               dstCap := (s.putReg r v).dstCap, valAddr := (s.putReg r v).valAddr,
               valLen := (s.putReg r v).valLen } := by
  cases hb : s.busy with
  | true => rw [putReg_operand_of_busy hr hb]
  | false =>
    cases r with
    | srcAddr | srcLen | dstAddr | dstCap | valAddr | valLen =>
      simp only [State.putReg, hb, Bool.false_eq_true, if_false]
    | _ => simp [operandRegs] at hr

/-- R227 leaves no operand register's value open. -/
theorem busyRegValue_operand (hr : r ∈ operandRegs) : s.busyRegValue r = none := by
  cases r with
  | srcAddr | srcLen | dstAddr | dstCap | valAddr | valLen => rfl
  | _ => simp [operandRegs] at hr

/-- The read-only registers (R23). -/
def readOnlyRegs : List HostReg := [.id, .cfg, .status, .errCode, .outLen, .resSym, .tblCount, .minLen, .maxLen]

/-- Read-only and reserved registers ignore a write, busy or not (R23, R36). -/
theorem putReg_ignored (hr : r ∈ .reserved :: readOnlyRegs) (v : Word) : s.putReg r v = s := by
  cases r with
  | cmd | srcAddr | srcLen | dstAddr | dstCap | valAddr | valLen | intEn | intPend => simp [readOnlyRegs] at hr
  | _ => rfl

end

/-- Settles O52: a write while BUSY = 0 is read back, and no operand register's value is left open. -/
theorem operandRegistersReadBack : Obligations.OperandRegistersReadBack := by
  unfold Obligations.OperandRegistersReadBack
  refine ⟨fun s off v rest hr hoff hi => ?_, fun s off v rest hr hi hv => ?_⟩
  · obtain ⟨hlt, hal, hreg⟩ := regAt_operandOffsets hoff
    have hframe := putReg_operand_frame (s := s.setInputs (.host (.read off .b4) :: rest)) hreg v
    have hbusy : (s.setInputs (.host (.read off .b4) :: rest)).busy = s.busy := rfl
    refine ⟨_, step_writeReg hr hi hlt hal, rfl, fun hb => ⟨_, step_readReg_of_not_open (rest := rest) ?_ ?_ hlt hal
      (busyRegValue_operand hreg), ?_⟩, fun hb => ?_, congrArg (State.respond · .done) hframe⟩
    · rw [hframe]; exact hr
    · rw [hframe]; rfl
    · exact congrArg (fun w => some (Response.data (.w32 w)))
        ((regValue_respond ..).trans (regValue_putReg_operand hreg (hbusy.trans hb) v))
    · rw [putReg_operand_of_busy hreg (hbusy.trans hb)]; rfl
  · simp only [List.mem_cons, Prod.mk.injEq, List.not_mem_nil, or_false] at hv
    obtain ⟨rfl, rfl⟩ | ⟨rfl, rfl⟩ | ⟨rfl, rfl⟩ | ⟨rfl, rfl⟩ | ⟨rfl, rfl⟩ | ⟨rfl, rfl⟩ := hv
    all_goals exact step_readReg_of_not_open hr hi (by decide) (by decide) rfl

/-- Settles O53: reserved registers and CMD read 0, busy or not, and reserved and read-only registers ignore writes. -/
theorem reservedOffsetsReadZero : Obligations.ReservedOffsetsReadZero := by
  unfold Obligations.ReservedOffsetsReadZero
  intro s off v rest hr
  have hwrite : off.toNat < 0x100 → off.toNat % 4 = 0 → regAt off.toNat ∈ .reserved :: readOnlyRegs →
      s.inputs = .host (.write off (.w32 v)) :: rest → step s = .next { s with inputs := rest, response := some .done } :=
    fun hlt hal hreg hi => by
      rw [step_writeReg hr hi hlt hal, putReg_ignored hreg]
      rfl
  refine ⟨fun hge hle hal => ⟨fun hi => ?_, ?_⟩, fun hi => ?_, fun hoff => ?_⟩
  · have hreg := regAt_reserved hge
    rw [step_readReg_of_not_open hr hi (by omega) hal (by rw [hreg]; rfl), hreg]
    rfl
  · exact hwrite (by omega) hal (by rw [regAt_reserved hge]; decide)
  · exact step_readReg_of_not_open hr hi (by decide) (by decide) rfl
  · simp only [List.mem_cons, List.not_mem_nil, or_false] at hoff
    obtain rfl | rfl | rfl | rfl | rfl | rfl | rfl | rfl | rfl := hoff
    all_goals exact hwrite (by decide) (by decide) (by decide)

end Sys2Proof.Machine

/-! ## What a step can do, and what only some steps change (R25 to R42, R60, R220) -/

namespace Sys2Proof.Machine

/-! ### Host transactions -/

/-- What a write of `v` to a register makes of the state (R25 to R37, R226). -/
inductive RegWritten (s : State) (v : Word) : HostReg → State → Prop where
  | ignored (r : HostReg) : RegWritten s v r s
  | dropped (hb : s.busy = true) : RegWritten s v .cmd { s with dropped := true }
  | accepted (hb : s.busy = false) : RegWritten s v .cmd (s.accept v)
  | intEn (b : Bool) : RegWritten s v .intEn { s with intEn := b }
  | intPend (b : Bool) : RegWritten s v .intPend { s with intPend := b }
  | srcAddr (hb : s.busy = false) : RegWritten s v .srcAddr { s with srcAddr := v }
  | srcLen (hb : s.busy = false) : RegWritten s v .srcLen { s with srcLen := v }
  | dstAddr (hb : s.busy = false) : RegWritten s v .dstAddr { s with dstAddr := v }
  | dstCap (hb : s.busy = false) : RegWritten s v .dstCap { s with dstCap := v }
  | valAddr (hb : s.busy = false) : RegWritten s v .valAddr { s with valAddr := v }
  | valLen (hb : s.busy = false) : RegWritten s v .valLen { s with valLen := v }

/-- A write that BUSY blocks. -/
theorem RegWritten.unless_busy {s u : State} {v : Word} {r : HostReg} (h : s.busy = false → RegWritten s v r u) :
    RegWritten s v r (if s.busy then s else u) := by
  split
  · exact .ignored r
  · exact h (Bool.eq_false_iff.2 ‹_›)

theorem regWritten_putReg (s : State) (r : HostReg) (v : Word) : RegWritten s v r (s.putReg r v) := by
  cases r with
  | cmd =>
    simp only [State.putReg]
    split
    · exact .dropped ‹_›
    · exact .accepted (Bool.eq_false_iff.2 ‹_›)
  | intEn => exact .intEn _
  | intPend => rw [putReg_intPend_eq_and]; exact .intPend _
  | srcAddr => exact .unless_busy .srcAddr
  | srcLen => exact .unless_busy .srcLen
  | dstAddr => exact .unless_busy .dstAddr
  | dstCap => exact .unless_busy .dstCap
  | valAddr => exact .unless_busy .valAddr
  | valLen => exact .unless_busy .valLen
  | _ => exact .ignored _

/-- What a host transaction makes of the state (R63 to R66, R226, R227). -/
inductive HostResult (s : State) : Txn → State → Prop where
  | read (off : Word) (z : Size) (x : Option Response) {n : Nat} (hn : s.draws ≤ n) :
    HostResult s (.read off z) { s with response := x, draws := n }
  | ignored (off : Word) (d : Datum) (x : Response) : HostResult s (.write off d) (s.respond x)
  | reg {off v : Word} {r : HostReg} {u : State} (hr : regAt off.toNat = r) (hu : RegWritten s v r u) :
    HostResult s (.write off (.w32 v)) (u.respond .done)
  | dmem {off : Word} {d : Datum} {loc : Nat} (hb : s.busy = false) (ht : target s.params off (datumSize d) = .dmem loc) :
    HostResult s (.write off d) ((s.setMem (Memory.writeBytes s.mem loc (datumBytes d))).respond .done)

/-- A read takes no free value back. -/
theorem hostRead_draws_le (s : State) (off : Word) (z : Size) : s.draws ≤ (s.hostRead off z).draws := by
  unfold State.hostRead State.readReg
  repeat' split
  all_goals simp

theorem hostTxn_result (s : State) (x : Txn) : HostResult s x (s.hostTxn x) := by
  cases x with
  | read off z =>
    rw [State.hostTxn, hostRead_frame]
    exact .read off z _ (hostRead_draws_le s off z)
  | write off d =>
    rw [State.hostTxn]
    unfold State.hostWrite
    split
    next r v hr =>
      obtain ⟨-, -, -, rfl⟩ := target_eq_reg hr
      exact .reg rfl (regWritten_putReg ..)
    next loc hloc =>
      split
      · exact .ignored ..
      · exact .dmem (Bool.eq_false_iff.2 ‹_›) hloc
    · exact .ignored ..

/-! ### Steps -/

/-- The state whose next event, if one is coming, has left the list. -/
abbrev State.advance (s : State) : State := s.setInputs s.inputs.tail

/-- What a step can do: a turn of the engine with nothing pending, a command, an illegal word, a host transaction, or
an edge of `rst`. -/
inductive StepResult (s : State) : State → Prop where
  | idle : StepResult s s.advance
  | command {i : Instr} {t : State} (hrun : s.Runs i) (h : exec i s.advance = .next t) : StepResult s t
  | illegal (hturn : s.EngineTurn) (hb : s.busy = true) : StepResult s (s.advance.raise .badCommand)
  | host {x : Txn} {t : State} (hx : s.Hosts x) (hr : s.rst = false) (h : HostResult s.advance x t) : StepResult s t
  | assert (h : s.Resets) : StepResult s s.advance.assertReset
  | release : StepResult s s.advance.releaseReset

theorem stepResult_of_engineStep {s t : State} (hturn : s.EngineTurn) (h : engineStep s.advance = .next t) :
    StepResult s t := by
  obtain ⟨-, rfl⟩ | ⟨w, i, hp, hd, he⟩ | ⟨w, e, hp, -, rfl⟩ := engineStep_cases h
  · exact .idle
  · exact .command ⟨hturn, w, hp, hd⟩ he
  · exact .illegal hturn (by simp [show s.pending = some w from hp])

/-- Every step does one of these things. -/
theorem step_result {s t : State} (h : step s = .next t) : StepResult s t := by
  obtain ⟨hi, -⟩ | ⟨rest, hi, -⟩ | ⟨x, rest, hi, hr, rfl⟩ | ⟨rest, hi, rfl⟩ | ⟨rest, hi, rfl⟩ := step_cases h
  · have hturn : s.EngineTurn := .inl hi
    exact stepResult_of_engineStep hturn (step_engineTurn hturn ▸ h)
  · have hturn : s.EngineTurn := .inr (by rw [hi]; rfl)
    exact stepResult_of_engineStep hturn (step_engineTurn hturn ▸ h)
  all_goals obtain rfl : s.inputs.tail = rest := by rw [hi]; rfl
  · exact .host (congrArg List.head? hi) hr (hostTxn_result ..)
  · exact .assert (congrArg List.head? hi)
  · exact .release

/-! ### The pending command -/

/-- The offset that names a register is the register's. -/
theorem eq_ofNat_regOffset {off : Word} {r : HostReg} (h : regAt off.toNat = r) (hr : r ≠ .reserved) :
    off = BitVec.ofNat 32 (regOffset r) := by
  subst h
  rw [← eq_regOffset hr, BitVec.ofNat_toNat, BitVec.setWidth_eq]

/-- A host transaction leaves the pending command, unless it is the CMD write that starts one. -/
theorem HostResult.pending {s t : State} {x : Txn} (h : HostResult s x t) :
    t.pending = s.pending ∨ s.busy = false ∧ ∃ w, x = .write 0x008 (.w32 w) ∧ t.pending = some w := by
  cases h with
  | @reg off v _ _ hr hu =>
    cases hu with
    | accepted hb =>
      obtain rfl : off = 0x008 := eq_ofNat_regOffset hr nofun
      exact .inr ⟨hb, v, rfl, rfl⟩
    | _ => exact .inl rfl
  | _ => exact .inl rfl

/-- A step leaves the pending command, ends it by the engine's turn or a reset, or starts one by a CMD write. -/
theorem step_pending {s t : State} (h : step s = .next t) :
    t.pending = s.pending ∨ (t.pending = none ∧ (s.EngineTurn ∨ s.Resets)) ∨
    (s.busy = false ∧ ∃ w, s.Hosts (.write 0x008 (.w32 w)) ∧ t.pending = some w) := by
  cases step_result h with
  | idle | release => exact .inl rfl
  | command hrun he => exact .inr (.inl ⟨(exec_completed he).pending, .inl hrun.1⟩)
  | illegal hturn => exact .inr (.inl ⟨rfl, .inl hturn⟩)
  | host hx _ hhost =>
    obtain hp | ⟨hidle, w, rfl, hw⟩ := hhost.pending
    · exact .inl hp
    · exact .inr (.inr ⟨hidle, w, hx, hw⟩)
  | assert hreset => exact .inr (.inl ⟨rfl, .inr hreset⟩)

/-- Settles O9: of all that a step can do, only the CMD write makes a command pending, and only the engine and a reset
end one. -/
theorem onlyCmdWritesStartCommands : Obligations.OnlyCmdWritesStartCommands := by
  unfold Obligations.OnlyCmdWritesStartCommands
  intro s t h
  obtain hp | ⟨hp, hend⟩ | ⟨hidle, hstart⟩ := step_pending h
  · have hbusy : t.busy = s.busy := congrArg Option.isSome hp
    exact ⟨fun hidle hb => absurd (hidle.symm.trans (hbusy.symm.trans hb)) nofun, fun _ hne => absurd hp hne⟩
  · exact ⟨fun _ hb => by simp [hp] at hb, fun _ _ => hend⟩
  · exact ⟨fun _ _ => hstart, fun hb => absurd (hidle.symm.trans hb) nofun⟩

/-! ### The table -/

/-- What a command makes of the table and of TBL_PRESENT (R40, R42, R100 to R111, R140, R170). -/
theorem exec_table {i : Instr} {s t : State} (h : exec i s = .next t) :
    (t.table = s.table ∧ t.tblPresent = s.tblPresent) ∨
    (i = .clear ∧ t.table = emptyTable ∧ t.tblPresent = false) ∨
    ((i = .generate ∨ i = .encode ∧ s.tblPresent = false) ∧ t.table = buildTable s.srcBytes ∧ t.tblPresent = true) ∨
    (i = .set ∧ setError s = none ∧ t.table = s.table.register s.entrySymbol (bitsOfChars s.valBytes) ∧
      t.tblPresent = true) := by
  cases exec_result h with
  | generated => exact .inr (.inr (.inl ⟨.inl rfl, rfl, rfl⟩))
  | registered hcheck => exact .inr (.inr (.inr ⟨rfl, hcheck, rfl, rfl⟩))
  | encodeFailed | encoded =>
    cases hp : s.tblPresent with
    | true => exact .inl (by simp [hp])
    | false => exact .inr (.inr (.inl ⟨.inr ⟨rfl, rfl⟩, by simp [hp]⟩))
  | cleared => exact .inr (.inl ⟨rfl, rfl, rfl⟩)
  | _ => exact .inl ⟨rfl, rfl⟩

/-- A host transaction leaves the table and TBL_PRESENT. -/
theorem HostResult.table {s t : State} {x : Txn} (h : HostResult s x t) :
    t.table = s.table ∧ t.tblPresent = s.tblPresent := by
  cases h with
  | reg _ hu => cases hu <;> exact ⟨rfl, rfl⟩
  | _ => exact ⟨rfl, rfl⟩

/-- A step leaves the table, removes it by CLEAR or a reset, or makes it present by GENERATE, SET or ENCODE. -/
theorem step_table {s t : State} (h : step s = .next t) :
    (t.table = s.table ∧ t.tblPresent = s.tblPresent) ∨
    (t.tblPresent = false ∧ (s.Runs .clear ∨ s.Resets)) ∨
    (t.tblPresent = true ∧ (s.Runs .generate ∨ s.Runs .set ∨ s.Runs .encode ∧ s.tblPresent = false)) := by
  cases step_result h with
  | idle | release | illegal => exact .inl ⟨rfl, rfl⟩
  | command hrun he =>
    obtain hkept | ⟨rfl, -, hp⟩ | ⟨rfl | ⟨rfl, habs⟩, -, hp⟩ | ⟨rfl, -, -, hp⟩ := exec_table he
    · exact .inl hkept
    · exact .inr (.inl ⟨hp, .inl hrun⟩)
    · exact .inr (.inr ⟨hp, .inl hrun⟩)
    · exact .inr (.inr ⟨hp, .inr (.inr ⟨hrun, habs⟩)⟩)
    · exact .inr (.inr ⟨hp, .inr (.inl hrun)⟩)
  | host _ _ hhost => exact .inl hhost.table
  | assert hreset => exact .inr (.inl ⟨rfl, .inr hreset⟩)

/-- Settles O41: a step that changes the table removes it or makes it present. -/
theorem onlyTableCommandsChangeTable : Obligations.OnlyTableCommandsChangeTable := by
  unfold Obligations.OnlyTableCommandsChangeTable
  intro s t h
  obtain ⟨htable, hp⟩ | ⟨hp, hwhy⟩ | ⟨hp, hwhy⟩ := step_table h
  · rw [hp]
    exact ⟨fun hf ht => absurd (hf.symm.trans ht) nofun, fun ht hf => absurd (hf.symm.trans ht) nofun,
      fun hne => absurd htable hne⟩
  · exact ⟨fun _ ht => absurd (hp.symm.trans ht) nofun, fun _ _ => hwhy, fun _ => .inr (.inr (.inr hwhy))⟩
  · exact ⟨fun _ _ => hwhy.imp_right (Or.imp_right And.left), fun _ hf => absurd (hf.symm.trans hp) nofun,
      fun _ => hwhy.imp_right (Or.imp_right .inl)⟩

/-! ### Operand registers -/

theorem regValue_read (s : State) (x : Option Response) (n : Nat) (r : HostReg) :
    State.regValue { s with response := x, draws := n } r = s.regValue r := by
  cases r <;> rfl

theorem regValue_setMem (s : State) (m : Memory) (r : HostReg) : (s.setMem m).regValue r = s.regValue r := by
  cases r <;> rfl

theorem regValue_releaseReset (s : State) (r : HostReg) : s.releaseReset.regValue r = s.regValue r := by
  cases r <;> rfl

section
variable {s t : State} {r : HostReg} (hr : r ∈ operandRegs)
include hr

/-- An error raised at once leaves the operand registers. -/
theorem regValue_raise_operand (e : CmdError) : (s.raise e).regValue r = s.regValue r := by
  cases r with
  | srcAddr | srcLen | dstAddr | dstCap | valAddr | valLen => rfl
  | _ => simp [operandRegs] at hr

/-- A command leaves the operand registers, but for the source operands of a MATCH that found a symbol. -/
theorem exec_regValue_operand {i : Instr} (h : exec i s = .next t) :
    t.regValue r = s.regValue r ∨ r ∈ [HostReg.srcAddr, .srcLen] ∧ i = .matchPrefix ∧ t.matched = true := by
  have hc := exec_completed h
  have hsrc : (t.srcAddr = s.srcAddr ∧ t.srcLen = s.srcLen) ∨ i = .matchPrefix ∧ t.matched = true :=
    or_iff_not_imp_right.2 (exec_srcOperands h)
  cases r with
  | srcAddr => exact hsrc.imp And.left fun hmatch => ⟨by decide, hmatch⟩
  | srcLen => exact hsrc.imp And.right fun hmatch => ⟨by decide, hmatch⟩
  | dstAddr => exact .inl hc.dstAddr
  | dstCap => exact .inl hc.dstCap
  | valAddr => exact .inl hc.valAddr
  | valLen => exact .inl hc.valLen
  | _ => simp [operandRegs] at hr

/-- A register write that changes an operand register is a write to it while BUSY = 0. -/
theorem RegWritten.operand {v : Word} {r' : HostReg} {u : State} (hu : RegWritten s v r' u)
    (hne : u.regValue r ≠ s.regValue r) : r' = r ∧ s.busy = false ∧ u.regValue r = v := by
  cases hu with
  | ignored => exact absurd rfl hne
  | dropped | accepted | intEn | intPend =>
    refine absurd ?_ hne
    cases r with
    | srcAddr | srcLen | dstAddr | dstCap | valAddr | valLen => rfl
    | _ => simp [operandRegs] at hr
  | srcAddr hb =>
    cases r with
    | srcAddr => exact ⟨rfl, hb, rfl⟩
    | _ => exact absurd rfl hne
  | srcLen hb =>
    cases r with
    | srcLen => exact ⟨rfl, hb, rfl⟩
    | _ => exact absurd rfl hne
  | dstAddr hb =>
    cases r with
    | dstAddr => exact ⟨rfl, hb, rfl⟩
    | _ => exact absurd rfl hne
  | dstCap hb =>
    cases r with
    | dstCap => exact ⟨rfl, hb, rfl⟩
    | _ => exact absurd rfl hne
  | valAddr hb =>
    cases r with
    | valAddr => exact ⟨rfl, hb, rfl⟩
    | _ => exact absurd rfl hne
  | valLen hb =>
    cases r with
    | valLen => exact ⟨rfl, hb, rfl⟩
    | _ => exact absurd rfl hne

/-- A host transaction that changes an operand register is a write to it while BUSY = 0. -/
theorem HostResult.operand {x : Txn} (h : HostResult s x t) (hne : t.regValue r ≠ s.regValue r) :
    ∃ v, x = .write (BitVec.ofNat 32 (regOffset r)) (.w32 v) ∧ s.busy = false ∧ t.regValue r = v := by
  cases h with
  | @reg off v _ u hreg hu =>
    rw [regValue_respond] at hne ⊢
    obtain ⟨rfl, hb, hv⟩ := hu.operand hr hne
    have hoff := eq_ofNat_regOffset hreg (fun h => by simp [h, operandRegs] at hr)
    exact ⟨v, by rw [hoff], hb, hv⟩
  | read => exact absurd (regValue_read ..) hne
  | ignored => exact absurd (regValue_respond ..) hne
  | dmem => exact absurd ((regValue_respond ..).trans (regValue_setMem ..)) hne

/-- Which steps change an operand register. -/
theorem step_operand (h : step s = .next t) (hne : t.regValue r ≠ s.regValue r) :
    (∃ v, s.Hosts (.write (BitVec.ofNat 32 (regOffset r)) (.w32 v)) ∧ s.busy = false ∧ t.regValue r = v) ∨ s.Resets ∨
      (r ∈ [HostReg.srcAddr, .srcLen] ∧ s.Runs .matchPrefix ∧ t.matched = true) := by
  have hadvance : s.advance.regValue r = s.regValue r := regValue_setInputs ..
  cases step_result h with
  | idle => exact absurd hadvance hne
  | release => exact absurd ((regValue_releaseReset ..).trans hadvance) hne
  | illegal => exact absurd ((regValue_raise_operand hr _).trans hadvance) hne
  | command hrun he =>
    obtain hkept | ⟨hsrc, rfl, hmatch⟩ := exec_regValue_operand hr he
    · exact absurd (hkept.trans hadvance) hne
    · exact .inr (.inr ⟨hsrc, hrun, hmatch⟩)
  | host hx _ hhost =>
    obtain ⟨v, rfl, hb, hv⟩ := hhost.operand hr (hadvance ▸ hne)
    exact .inl ⟨v, hx, hb, hv⟩
  | assert hreset => exact .inr (.inl hreset)

/-- No command changes an operand register other than the source operands. -/
theorem step_operand_of_notMem (hsrc : r ∉ [HostReg.srcAddr, .srcLen]) (h : step s = .next t)
    (hne : t.regValue r ≠ s.regValue r) :
    (∃ v, s.Hosts (.write (BitVec.ofNat 32 (regOffset r)) (.w32 v)) ∧ s.busy = false ∧ t.regValue r = v) ∨ s.Resets :=
  (step_operand hr h hne).imp_right fun hor => hor.resolve_right fun ⟨hmem, _⟩ => hsrc hmem

end

/-- Settles O42: what changes an operand register, for each of the six. -/
theorem onlyHostAndMatchChangeOperands : Obligations.OnlyHostAndMatchChangeOperands := by
  unfold Obligations.OnlyHostAndMatchChangeOperands
  intro s t h
  exact ⟨fun hne => (step_operand (r := .srcAddr) (by decide) h hne).imp_right (Or.imp_right And.right),
    fun hne => (step_operand (r := .srcLen) (by decide) h hne).imp_right (Or.imp_right And.right),
    step_operand_of_notMem (r := .dstAddr) (by decide) (by decide) h,
    step_operand_of_notMem (r := .dstCap) (by decide) (by decide) h,
    step_operand_of_notMem (r := .valAddr) (by decide) (by decide) h,
    step_operand_of_notMem (r := .valLen) (by decide) (by decide) h⟩

/-! ### DMEM -/

/-- A host transaction that changes a byte is a write that covers it while BUSY = 0 (R66, R226). -/
theorem HostResult.readByte_ne {s t : State} {x : Txn} {a : Nat} (h : HostResult s x t)
    (hne : t.readByte a ≠ s.readByte a) :
    ∃ off d, x = .write off d ∧ s.busy = false ∧ off.toNat ≤ 0x01000000 + a ∧
      0x01000000 + a < off.toNat + sizeBytes (datumSize d) := by
  cases h with
  | reg _ hu => cases hu <;> exact absurd rfl hne
  | @dmem off d loc hb ht =>
    refine ⟨off, d, rfl, hb, ?_⟩
    obtain ⟨hoff, -, -⟩ := target_eq_dmem ht
    by_contra hout
    refine hne ?_
    rw [readByte_respond, readByte_setMem_writeBytes, length_datumBytes, if_neg (by omega)]
  | _ => exact absurd rfl hne

/-- Settles O43: what changes a byte, of all that a step can do. -/
theorem dmemByteIsStable : Obligations.DmemByteIsStable := by
  unfold Obligations.DmemByteIsStable
  intro s t a h hne
  cases step_result h with
  | idle | release | illegal => exact absurd rfl hne
  | command hrun he =>
    obtain ⟨hi, hdst⟩ := exec_readByte_ne he hne
    simp only [List.mem_cons, List.not_mem_nil, or_false] at hi
    refine .inr (.inr ⟨?_, hdst⟩)
    obtain rfl | rfl | rfl := hi
    · exact .inl hrun
    · exact .inr (.inl hrun)
    · exact .inr (.inr hrun)
  | host hx _ hhost =>
    obtain ⟨off, d, rfl, hcover⟩ := hhost.readByte_ne hne
    exact .inr (.inl ⟨off, d, hx, hcover⟩)
  | assert hreset => exact .inl hreset

end Sys2Proof.Machine

/-! ## Registering a code, and the walk (R100, R101, R106) -/

namespace Sys2Proof.Machine

/-- Settles O16: the walk of the empty table from the empty path. -/
theorem walkAssignsRootPaths : Obligations.WalkAssignsRootPaths := by
  unfold Obligations.WalkAssignsRootPaths
  intro tree y c hnodup
  rw [lookup_walk_emptyTable hnodup]
  simp

/-- Settles O18: registering a new symbol keeps the bookkeeping. -/
theorem registerKeepsBookkeeping : Obligations.RegisterKeepsBookkeeping := by
  unfold Obligations.RegisterKeepsBookkeeping
  exact ⟨bookkept_emptyTable, fun t y c ht hy => ⟨fun r => lookup_register t y r c, rfl, ht.register c hy⟩⟩

end Sys2Proof.Machine

/-! ## Reset and release, and the invariant (R40, R41, R190, R220, R221) -/

namespace Sys2Proof.Machine

/-! ### The edges of `rst` -/

/-- Settles O47: no byte is written after an assertion, and its draw is the next one. -/
theorem resetLeavesDmemUnspecified : Obligations.ResetLeavesDmemUnspecified := by
  unfold Obligations.ResetLeavesDmemUnspecified
  refine ⟨fun _ => rfl, fun s h => ?_⟩
  obtain ⟨rest, hi⟩ := List.head?_eq_some_iff.1 h
  exact ⟨_, step_rstAssert hi, fun _ => rfl, Nat.lt_succ_self _⟩

/-- Settles O59: the event lowers the level. -/
theorem releaseChangesOnlyTheLevel : Obligations.ReleaseChangesOnlyTheLevel := by
  unfold Obligations.ReleaseChangesOnlyTheLevel
  exact fun s rest hi => step_rstRelease hi

/-! ### The invariant in the reset state -/

theorem codesLegal_emptyTable (p : Params) : emptyTable.CodesLegal p := by
  intro y c hc
  simp at hc

/-- A reset state with nothing written and the empty table has the invariant. -/
theorem State.AtReset.invariant {s : State} (h : s.AtReset) (hparams : s.params.wf = true) (hmem : s.mem = [])
    (htable : s.table = emptyTable) (hfresh : s.dmemDraw < s.draws) : Invariant s := by
  obtain ⟨hout, hres, hcode⟩ := h.results
  obtain ⟨hdone, herr, hmatch, -, -⟩ := h.status
  constructor
  case params => exact hparams
  case memory => rw [hmem]; rfl
  case bookkept => exact htable ▸ bookkept_emptyTable
  case codesLegal => exact htable ▸ codesLegal_emptyTable _
  case absent => exact fun _ => h.noEntry
  case busyNew => exact fun _ => hdone
  case cleared => exact fun _ => ⟨herr, hmatch, hcode, hout, hres⟩
  case errFlag => simp [herr, hcode]
  case errRange => simp [hcode]
  case errResults => exact fun _ => ⟨hout, hres, hmatch⟩
  case fresh => exact hfresh
  case underReset => exact fun _ => h

/-- Settles O44: the state after power-on is a reset state. -/
theorem resetHasInvariant : Obligations.ResetHasInvariant := by
  unfold Obligations.ResetHasInvariant
  exact atReset_reset.invariant (by decide) rfl rfl (by decide)

/-! ### Commands keep it -/

/-- Codes of built tables have 1 to 255 bits, which every CODE_LEN_MAX allows (R7, R107). -/
theorem codesLegal_buildTable {p : Params} (hp : p.wf = true) (src : List Byte) : (buildTable src).CodesLegal p := by
  intro y c hc
  obtain ⟨-, -, -, -, hlen⟩ := builtTableIsPrefixFree src
  obtain ⟨hpos, hle, -⟩ := hlen y c hc
  obtain ⟨-, -, hmax, -⟩ := (params_wf_iff p).1 hp
  exact decide_eq_true ⟨hpos, hle.trans hmax⟩

/-- What SET's checks have found when they all pass (R120). -/
theorem setError_eq_none {s : State} (h : setError s = none) :
    s.table.lookup s.entrySymbol = none ∧ codeWf s.params (bitsOfChars s.valBytes) = true := by
  unfold setError at h
  split_ifs at h with _ _ _ hdup hlen
  have hval : (bitsOfChars s.valBytes).length = s.valLen.toNat := by simp [bitsOfChars, State.valBytes]
  refine ⟨by simpa using hdup, decide_eq_true ?_⟩
  omega

/-- The table's part of the invariant: R40, R41 and, of an absent table, R42. -/
structure TableWf (p : Params) (t : CodeTable) (present : Bool) : Prop where
  bookkept   : t.Bookkept
  codesLegal : t.CodesLegal p
  absent     : present = false → ∀ y, t.lookup y = none

theorem exec_tableWf {i : Instr} {s t : State} (hinv : Invariant s) (h : exec i s = .next t) :
    TableWf s.params t.table t.tblPresent := by
  obtain ⟨htable, hp⟩ | ⟨-, htable, hp⟩ | ⟨-, htable, hp⟩ | ⟨-, hcheck, htable, hp⟩ := exec_table h <;> rw [htable, hp]
  · exact ⟨hinv.bookkept, hinv.codesLegal, hinv.absent⟩
  · exact ⟨bookkept_emptyTable, codesLegal_emptyTable _, fun _ => lookup_emptyTable⟩
  · exact ⟨bookkept_buildTable _, codesLegal_buildTable hinv.params _, nofun⟩
  · obtain ⟨hnew, hlegal⟩ := setError_eq_none hcheck
    refine ⟨hinv.bookkept.register _ hnew, fun y c hc => ?_, nofun⟩
    rw [lookup_register] at hc
    split at hc
    · exact Option.some.inj hc ▸ hlegal
    · exact hinv.codesLegal y c hc

/-- Bytes that fit the destination, which is in DMEM, keep the canonical form. -/
theorem exec_memoryWf {i : Instr} {s t : State} (hinv : Invariant s) (h : exec i s = .next t) :
    Memory.wf s.params t.mem = true := by
  obtain hmem | ⟨-, ⟨-, hdst, -⟩, bs, hfit, hmem⟩ := exec_mem h <;> rw [hmem]
  · exact hinv.memory
  · refine wf_writeBytes bs hinv.memory ?_
    obtain hzero | hdst := hdst
    · exact .inl (List.length_eq_zero_iff.1 (by omega))
    · exact .inr (by unfold dmemSize; omega)

/-- A command takes no free value back. -/
theorem exec_draws_le {i : Instr} {s t : State} (h : exec i s = .next t) : s.draws ≤ t.draws := by
  cases exec_result h with
  | encodeFailed | encoded => simp
  | decodeFailed => exact Nat.le_succ _
  | _ => exact le_rfl

/-- A command that ends with an error clears the results (R197 d). -/
theorem exec_errResults {i : Instr} {s t : State} (h : exec i s = .next t) (hne : t.errCode ≠ 0) :
    t.outLen = 0 ∧ t.resSym = 0 ∧ t.matched = false := by
  obtain ⟨u, e, rfl, -, -⟩ := (exec_ending h).exists_raise hne
  exact ⟨rfl, rfl, rfl⟩

/-- A command run while `rst` is low keeps the invariant. -/
theorem Invariant.exec {i : Instr} {s t : State} (hinv : Invariant s) (hrst : s.rst = false)
    (h : Machine.exec i s = .next t) : Invariant t := by
  have hc := exec_completed h
  have htable := exec_tableWf hinv h
  obtain ⟨u, e, he⟩ := exec_eq_complete h
  have herr : t.err = true ↔ t.errCode ≠ 0 := he ▸ err_complete_iff u e
  constructor
  case params => exact hc.params ▸ hinv.params
  case memory => exact hc.params ▸ exec_memoryWf hinv h
  case bookkept => exact htable.bookkept
  case codesLegal => exact hc.params ▸ htable.codesLegal
  case absent => exact htable.absent
  case busyNew => exact fun hb => by simp [hc.pending] at hb
  case cleared => exact fun hd => absurd (hd.symm.trans hc.done) nofun
  case errFlag => exact herr
  case errRange => exact he ▸ errCode_complete_le u e
  case errResults => exact fun ht => exec_errResults h (herr.1 ht)
  case fresh => exact hc.dmemDraw ▸ hinv.fresh.trans_le (exec_draws_le h)
  case underReset => exact fun ht => absurd (hrst.symm.trans (hc.rst.symm.trans ht)) nofun

/-- An error raised while `rst` is low keeps the invariant. -/
theorem Invariant.raise {s : State} (hinv : Invariant s) (hrst : s.rst = false) (e : CmdError) :
    Invariant (s.raise e) where
  params := hinv.params
  memory := hinv.memory
  bookkept := hinv.bookkept
  codesLegal := hinv.codesLegal
  absent := hinv.absent
  busyNew := nofun
  cleared := nofun
  errFlag := err_complete_iff s.clearResults (some e)
  errRange := errCode_complete_le s.clearResults (some e)
  errResults := fun _ => ⟨rfl, rfl, rfl⟩
  fresh := hinv.fresh
  underReset := fun ht => absurd (hrst.symm.trans ht) nofun

/-! ### Host transactions and the edges of `rst` keep it -/

/-- The coming inputs, the response and a later draw have no part in the invariant. -/
theorem Invariant.frame {s : State} (hinv : Invariant s) (l : List Input) (x : Option Response) {n : Nat}
    (hn : s.draws ≤ n) : Invariant { s with inputs := l, response := x, draws := n } :=
  { hinv with
    fresh := hinv.fresh.trans_le hn
    underReset := fun h => (hinv.underReset h).of_core .. }

theorem Invariant.respond {s : State} (hinv : Invariant s) (x : Response) : Invariant (s.respond x) :=
  hinv.frame s.inputs (some x) le_rfl

theorem Invariant.advance {s : State} (hinv : Invariant s) : Invariant s.advance :=
  hinv.frame s.inputs.tail s.response le_rfl

/-- A release of `rst` keeps the invariant. -/
theorem Invariant.releaseReset {s : State} (hinv : Invariant s) : Invariant s.releaseReset :=
  { hinv with underReset := nofun }

/-- An assertion of `rst` keeps the invariant. -/
theorem Invariant.assertReset {s : State} (hinv : Invariant s) : Invariant s.assertReset :=
  (atReset_assertReset s).invariant hinv.params rfl rfl (Nat.lt_succ_self _)

section
variable {s : State} (hinv : Invariant s) (hrst : s.rst = false)
include hinv hrst

/-- A register write while `rst` is low keeps the invariant: an accept clears the outcome fields, and no other write
touches what the invariant speaks of. -/
theorem Invariant.regWritten {v : Word} {r : HostReg} {u : State} (hu : RegWritten s v r u) : Invariant u := by
  have hlow : ∀ {P : Prop}, s.rst = true → P := fun h => absurd (hrst.symm.trans h) nofun
  cases hu with
  | ignored => exact hinv
  | accepted =>
    exact { hinv with
      busyNew := fun _ => rfl
      cleared := fun _ => ⟨rfl, rfl, rfl, rfl, rfl⟩
      errFlag := ⟨nofun, fun h => absurd rfl h⟩
      errRange := Nat.zero_le 9
      errResults := nofun
      underReset := hlow }
  | _ => exact { hinv with underReset := hlow }

/-- A host transaction while `rst` is low keeps the invariant. -/
theorem Invariant.host {x : Txn} {t : State} (h : HostResult s x t) : Invariant t := by
  cases h with
  | read _ _ y hn => exact hinv.frame s.inputs y hn
  | ignored => exact hinv.respond _
  | reg _ hu => exact (hinv.regWritten hrst hu).respond _
  | @dmem off d loc hb ht =>
    obtain ⟨hoff, hloc, hal⟩ := target_eq_dmem ht
    have hend := aligned_access_le_dmemSize hinv.params hoff hloc hal
    have hwritten : Invariant (s.setMem (Memory.writeBytes s.mem loc (datumBytes d))) :=
      { hinv with
        memory := wf_writeBytes _ hinv.memory (.inr (by rwa [length_datumBytes]))
        underReset := fun h => absurd (hrst.symm.trans h) nofun }
    exact hwritten.respond _

end

/-- Under `rst` nothing is pending. -/
theorem Invariant.rst_low {s : State} (hinv : Invariant s) (hb : s.busy = true) : s.rst = false := by
  by_contra h
  have hidle := (hinv.underReset (by simpa using h)).busy
  exact absurd (hidle.symm.trans hb) nofun

/-- Settles O45: a command and an illegal word run while `rst` is low, as the host does. -/
theorem stepKeepsInvariant : Obligations.StepKeepsInvariant := by
  unfold Obligations.StepKeepsInvariant
  intro s t hinv h
  cases step_result h with
  | idle => exact hinv.advance
  | command hrun he =>
    obtain ⟨-, w, hp, -⟩ := hrun
    exact hinv.advance.exec (hinv.rst_low (by simp [hp])) he
  | illegal _ hb => exact hinv.advance.raise (hinv.rst_low hb) _
  | host _ hr hhost => exact hinv.advance.host hr hhost
  | assert => exact hinv.advance.assertReset
  | release => exact hinv.advance.releaseReset

end Sys2Proof.Machine
